-- ==== Sys2Proof/Word.lean ====
section
/-! DEFINITION. The two widths the spec computes with: bytes and 32-bit host words (00_scope.md R9; 10_state.md R27). -/

namespace Sys2Proof

/-- A byte: 8 bits, values 0 to 255 (R9). -/
abbrev Byte := BitVec 8

/-- A word of the host window: 32 bits (R27, R60). -/
abbrev Word := BitVec 32

end Sys2Proof
end

