-- ==== Sys2Proof/Syntax.lean ====
section
/-! DEFINITION. The instructions: one constructor per row of spec/opcode_table.json. The 17 host commands carry the
operands of the command word they use (30_encoding.md R80, R81); their other operands stay in ARG0, ARG1 and the
buffers. The 13 wire message kinds carry the fields of the frame (30_encoding.md R90, R94): FROM, DST and `M`. -/

namespace Sys2Proof

/-- The thirteen named message kinds (30_encoding.md R94). -/
inductive Kind where
  | ping
  | pingReply
  | ackOk
  | ackNok
  | sleep
  | resetSoft
  | resetHard
  | readReg
  | readReply
  | writeReg
  | getInfo
  | infoReply
  | sync
deriving DecidableEq, Repr

/-- Every kind, in the order of R94's table. -/
def Kind.all : List Kind :=
  [.ping, .pingReply, .ackOk, .ackNok, .sleep, .resetSoft, .resetHard, .readReg, .readReply, .writeReg,
    .getInfo, .infoReply, .sync]

/-- The instructions of the engine, in the order of spec/opcode_table.json. -/
inductive Instr where
  /-- CHECKSUM (R121). -/
  | checksum
  /-- ENCODE (R122). -/
  | encode (dst kind : Byte)
  /-- DECODE (R123). -/
  | decode
  /-- FLUSH (R165). -/
  | flush
  /-- EXCHANGE (R163). -/
  | exchange (dst kind : Byte)
  /-- SEND (R164). -/
  | send (dst kind : Byte)
  /-- PING (R182). -/
  | ping (dst : Byte)
  /-- RESET_SOFT (R185). -/
  | resetSoft (dst : Byte)
  /-- RESET_HARD (R186). -/
  | resetHard (dst : Byte)
  /-- SLEEP (R187). -/
  | sleep (dst : Byte)
  /-- GET_INFO (R188). -/
  | getInfo (dst : Byte)
  /-- SYNC (R189). -/
  | sync
  /-- PING_LATEST (R184). -/
  | pingLatest
  /-- READ (R213). -/
  | read (dst : Byte)
  /-- WRITE (R214). -/
  | write (dst : Byte)
  /-- READ_TYPED (R218). -/
  | readTyped (dst : Byte)
  /-- WRITE_TYPED (R219). -/
  | writeTyped (dst : Byte)
  /-- A received frame of kind PING. -/
  | kindPing (src dst : Byte) (m : List Byte)
  /-- A received frame of kind PING_REPLY. -/
  | kindPingReply (src dst : Byte) (m : List Byte)
  /-- A received frame of kind ACK_OK. -/
  | kindAckOk (src dst : Byte) (m : List Byte)
  /-- A received frame of kind ACK_NOK. -/
  | kindAckNok (src dst : Byte) (m : List Byte)
  /-- A received frame of kind SLEEP. -/
  | kindSleep (src dst : Byte) (m : List Byte)
  /-- A received frame of kind RESET_SOFT. -/
  | kindResetSoft (src dst : Byte) (m : List Byte)
  /-- A received frame of kind RESET_HARD. -/
  | kindResetHard (src dst : Byte) (m : List Byte)
  /-- A received frame of kind READ_REG. -/
  | kindReadReg (src dst : Byte) (m : List Byte)
  /-- A received frame of kind READ_REPLY. -/
  | kindReadReply (src dst : Byte) (m : List Byte)
  /-- A received frame of kind WRITE_REG. -/
  | kindWriteReg (src dst : Byte) (m : List Byte)
  /-- A received frame of kind GET_INFO. -/
  | kindGetInfo (src dst : Byte) (m : List Byte)
  /-- A received frame of kind INFO_REPLY. -/
  | kindInfoReply (src dst : Byte) (m : List Byte)
  /-- A received frame of kind SYNC. -/
  | kindSync (src dst : Byte) (m : List Byte)
deriving DecidableEq, Repr

end Sys2Proof
end

