-- ==== Sys2Proof/Config.lean ====
section
/-! DEFINITION. What one implementation of the engine fixes: the parameters of 00_scope.md R7, their constraints (R8,
43_register_access.md R210), the spec's defaults, and the free values the spec leaves open (opaque constants, no
body: nothing can be proved of them). -/

namespace Sys2Proof

/-! ### Constants

R7 fixes some of these from the source. `MIN_LEN`, `REGMAP_MAX`, `BUF_SIZE` and the 12-bit host address are of its kind
"decision", which a model may override: that they stand here at their defaults, and not in `ParamSet`, is the model's
choice (DESIGN CHOICE; log 23). -/

/-- `SOH` (R7, R90). -/
def SOH : Byte := 0x01
/-- `MIN_LEN`: header, kind byte, checksum (R7, R92). DESIGN CHOICE: fixed at its default (log 23). -/
def MIN_LEN : Nat := 6
/-- `MAX_M`: message bytes after the kind byte, on encode (R7, R93). -/
def MAX_M : Nat := 248
/-- `MAX_READ` (R7, R213). -/
def MAX_READ : Nat := 248
/-- `MAX_WDATA = MAX_M - 2` (R7, R214). -/
def MAX_WDATA : Nat := 246
/-- The most message bytes a received frame carries (R93). -/
def MAX_RX_M : Nat := 249
/-- `REGMAP_MAX` (R7, R210). DESIGN CHOICE: fixed at its default (log 23). -/
def REGMAP_MAX : Nat := 64
/-- Bytes of a leaf's register space (R72). -/
def LEAF_SPACE : Nat := 65536
/-- Bytes in each of TXBUF, RXBUF and FRAMEBUF (R7, R48 to R50). DESIGN CHOICE: fixed at its default (log 23). -/
def BUF_SIZE : Nat := 256

/-! ### Parameters -/

/-- `CHK_ALG` (R110). -/
inductive ChkAlg where
  | crc8
  | sum2c
deriving DecidableEq, Repr

/-- `KIND_CODE`: one code per kind (R94). -/
structure KindCodes where
  ping : Byte
  pingReply : Byte
  ackOk : Byte
  ackNok : Byte
  sleep : Byte
  resetSoft : Byte
  resetHard : Byte
  readReg : Byte
  readReply : Byte
  writeReg : Byte
  getInfo : Byte
  infoReply : Byte
  sync : Byte
deriving DecidableEq, Repr

/-- The code of a kind. -/
def KindCodes.code (c : KindCodes) : Kind → Byte
  | .ping => c.ping
  | .pingReply => c.pingReply
  | .ackOk => c.ackOk
  | .ackNok => c.ackNok
  | .sleep => c.sleep
  | .resetSoft => c.resetSoft
  | .resetHard => c.resetHard
  | .readReg => c.readReg
  | .readReply => c.readReply
  | .writeReg => c.writeReg
  | .getInfo => c.getInfo
  | .infoReply => c.infoReply
  | .sync => c.sync

/-- The decoded type of a register (30_encoding.md R101). Codes 5 to 7 have no constructor, so no descriptor has
them (R210). -/
inductive RegType where
  | float32
  | uint32
  | uint8
  | bitflags
  | bytebuf
deriving DecidableEq, Repr

/-- The type code shown in a DESC word (R101). -/
def RegType.code : RegType → Nat
  | .float32 => 0
  | .uint32 => 1
  | .uint8 => 2
  | .bitflags => 3
  | .bytebuf => 4

/-- A register descriptor (43_register_access.md R210). -/
structure Descriptor where
  name : String
  offset : Nat
  width : Nat
  type : RegType
  /-- Non-volatile; no rule of the engine reads it but the DESC word (R210). -/
  nv : Bool
  ro : Bool
deriving DecidableEq, Repr

/-- The parameter set of R7. `unlockConst`, `tickUs`, `cfgFreeRun` and `cfgCalcStat` are read by no rule of the
engine: the host and the leaves use them (R186, R220, R253, R265). -/
structure ParamSet where
  kindCodes : KindCodes
  chkAlg : ChkAlg
  masterIdRst : Byte
  bcastAddrRst : Byte
  timeoutRst : Word
  tickUs : Nat
  rxFifoDepth : Nat
  protoMajor : Byte
  protoMinor : Byte
  regmap : List Descriptor
  memlockOffset : Nat
  cfgFreeRun : Byte
  cfgCalcStat : Byte
  unlockConst : Word
deriving DecidableEq, Repr

namespace Config

/-! ### Free values (no body) -/

/-- OPEN parameter `PROTO_MAJOR` (R7; 92_eei_decisions.md D18; log 3). -/
opaque protoMajor : Byte
/-- OPEN parameter `PROTO_MINOR` (R7; D18; log 3). -/
opaque protoMinor : Byte
/-- OPEN parameter `UNLOCK_CONST` (R7; D25; log 3). -/
opaque unlockConst : Word
/-- What a buffer byte that nothing has written since a Reset holds: a draw, fresh at every Reset, given by the
number of resets so far and the byte's host address (70_reset_and_hazards.md R282; log 4). -/
opaque bufferDraw : Nat → Nat → Byte
/-- What a field shows for a count of received bytes that does not fit it (10_state.md R47, 41_transport.md R165
state no result there; log 12). -/
opaque countOverflow : Nat → Word

/-! ### Defaults (92_eei_decisions.md D3 to D25) -/

/-- The default `KIND_CODE` (R94). -/
def kindCodes : KindCodes where
  ping := 0x00
  pingReply := 0x01
  ackOk := 0x02
  ackNok := 0x03
  sleep := 0x04
  resetSoft := 0x05
  resetHard := 0x06
  readReg := 0x07
  readReply := 0x08
  writeReg := 0x09
  getInfo := 0x0A
  infoReply := 0x0B
  sync := 0x0C

/-- `MEMLOCK_OFFSET` (R7; D23). -/
def memlockOffset : Nat := 384

/-- A `float32` register of the default map. -/
def floatReg (name : String) (offset : Nat) (nv : Bool) : Descriptor :=
  { name := name, offset := offset, width := 4, type := .float32, nv := nv, ro := false }

/-- Four channels of one quantity, four bytes apart (R211). -/
def channels (n0 n1 n2 n3 : String) (offset : Nat) (nv : Bool) : List Descriptor :=
  [floatReg n0 offset nv, floatReg n1 (offset + 4) nv, floatReg n2 (offset + 8) nv, floatReg n3 (offset + 12) nv]

/-- The default `REGMAP` of R211, REGID 0 to 35. -/
def regmap : List Descriptor :=
  [{ name := "UID", offset := 0, width := 4, type := .uint32, nv := true, ro := true },
   { name := "DEV_ADDR", offset := 4, width := 1, type := .uint8, nv := true, ro := false },
   { name := "DESIRED_CYCLE_US", offset := 8, width := 4, type := .uint32, nv := true, ro := false },
   { name := "CONFIG", offset := 40, width := 1, type := .bitflags, nv := true, ro := false }]
  ++ channels "PV0" "PV1" "PV2" "PV3" 256 false
  ++ channels "MEAN0" "MEAN1" "MEAN2" "MEAN3" 272 false
  ++ channels "STD0" "STD1" "STD2" "STD3" 288 false
  ++ channels "MIN0" "MIN1" "MIN2" "MIN3" 304 false
  ++ channels "MAX0" "MAX1" "MAX2" "MAX3" 320 false
  ++ channels "GAIN0" "GAIN1" "GAIN2" "GAIN3" 336 true
  ++ channels "OFS0" "OFS1" "OFS2" "OFS3" 352 true
  ++ [{ name := "ERROR_FLAGS", offset := 368, width := 4, type := .bitflags, nv := false, ro := false },
      { name := "DEV_STATUS", offset := 372, width := 4, type := .uint32, nv := false, ro := true },
      { name := "ACTUAL_CYCLE_US", offset := 376, width := 4, type := .uint32, nv := false, ro := true },
      { name := "MEMLOCK", offset := memlockOffset, width := 4, type := .uint32, nv := false, ro := false }]

/-- The default parameter set of R7; the OPEN parameters are the opaque constants above. -/
def paramSet : ParamSet where
  kindCodes := kindCodes
  chkAlg := .crc8
  masterIdRst := 0x00
  bcastAddrRst := 0xFF
  timeoutRst := 20000
  tickUs := 1
  rxFifoDepth := 512
  protoMajor := protoMajor
  protoMinor := protoMinor
  regmap := regmap
  memlockOffset := memlockOffset
  cfgFreeRun := 0x01
  cfgCalcStat := 0x02
  unlockConst := unlockConst

end Config

end Sys2Proof
end

