-- ==== Sys2Proof/WellFormed.lean ====
section
/-! DEFINITION. The checks a term must pass to be meaningful: the parameter constraints of 00_scope.md R8 and
43_register_access.md R210 (a set that breaks one is refused by name, and no State can hold it), and the length bound
of a received frame (30_encoding.md R93). -/

namespace Sys2Proof

/-! ### Parameters (R8, R210) -/

/-- Why a parameter set is refused, one constructor per constraint of R8 and R210. Raised by `Params.check` only.
Safe: the set has no run (93_implementation_defined.md, treatment `refuse`). -/
inductive ParamProblem where
  /-- Two `KIND_CODE` values are equal (R8). -/
  | kindCodesNotDistinct
  /-- `RXFIFO_DEPTH` is 0 (R8). -/
  | rxFifoDepthZero
  /-- `MEMLOCK_OFFSET + 4 > 65536` (R8). -/
  | memlockPastEnd
  /-- `REGMAP` has more than 64 descriptors (R210). -/
  | regmapTooLong
  /-- A descriptor's width does not suit its type (R210). -/
  | badWidth
  /-- A descriptor reaches past offset 65535 (R210). -/
  | descriptorPastEnd
  /-- Two descriptors overlap (R210). -/
  | descriptorsOverlap
  /-- Two descriptors have one name (R210). -/
  | namesNotDistinct
deriving DecidableEq, Repr

/-- No two elements of the list are related by `r`, and none comes before one it is related to. -/
def noPair {α : Type} (r : α → α → Bool) : List α → Bool
  | [] => true
  | x :: xs => xs.all (fun y => !r x y) && noPair r xs

/-- R8: the thirteen codes are pairwise distinct. -/
def KindCodes.distinct (c : KindCodes) : Bool :=
  noPair (fun a b => a == b) (Kind.all.map c.code)

/-- R210: the width a type admits. -/
def Descriptor.widthOk (d : Descriptor) : Bool :=
  match d.type with
  | .float32 => d.width == 4
  | .uint32 => d.width == 4
  | .uint8 => d.width == 1
  | .bitflags => decide (1 ≤ d.width) && decide (d.width ≤ 4)
  | .bytebuf => decide (1 ≤ d.width) && decide (d.width ≤ 248)

/-- R210: `offset + width <= 65536`. -/
def Descriptor.inSpace (d : Descriptor) : Bool :=
  decide (d.offset + d.width ≤ LEAF_SPACE)

/-- The ranges of two descriptors meet (R210). -/
def Descriptor.overlaps (a b : Descriptor) : Bool :=
  decide (a.offset < b.offset + b.width) && decide (b.offset < a.offset + a.width)

/-- The first constraint a parameter set breaks, if any. -/
def ParamSet.problem (p : ParamSet) : Option ParamProblem :=
  if !p.kindCodes.distinct then some .kindCodesNotDistinct
  else if p.rxFifoDepth == 0 then some .rxFifoDepthZero
  else if decide (LEAF_SPACE < p.memlockOffset + 4) then some .memlockPastEnd
  else if decide (REGMAP_MAX < p.regmap.length) then some .regmapTooLong
  else if !p.regmap.all Descriptor.widthOk then some .badWidth
  else if !p.regmap.all Descriptor.inSpace then some .descriptorPastEnd
  else if !noPair Descriptor.overlaps p.regmap then some .descriptorsOverlap
  else if !noPair (fun a b => a == b) (p.regmap.map (fun d => d.name)) then some .namesNotDistinct
  else none

/-- A parameter set that meets R8 and R210, with the proof that it does: the only kind a State can hold. -/
structure Params where
  set : ParamSet
  ok : set.problem = none
deriving DecidableEq, Repr

/-- R8: refuses, by name, a parameter set that breaks a constraint. -/
def Params.check (p : ParamSet) : Except ParamProblem Params :=
  match h : p.problem with
  | none => .ok ⟨p, h⟩
  | some e => .error e

/-- The spec's defaults pass every check. -/
theorem Config.paramSet_admissible : Config.paramSet.problem = none := by decide +kernel

/-- The default parameters (R7). -/
def Config.params : Params := ⟨Config.paramSet, Config.paramSet_admissible⟩

/-! ### Instructions -/

/-- A message a received frame can carry: `|M| <= 249` (R93). -/
def messageOk (m : List Byte) : Bool := decide (m.length ≤ MAX_RX_M)

/-- A command word's fields are bytes, each legal (R85); a frame's message fits a LEN byte (R93). -/
def Instr.wf : Instr → Bool
  | .checksum => true
  | .encode _ _ => true
  | .decode => true
  | .flush => true
  | .exchange _ _ => true
  | .send _ _ => true
  | .ping _ => true
  | .resetSoft _ => true
  | .resetHard _ => true
  | .sleep _ => true
  | .getInfo _ => true
  | .sync => true
  | .pingLatest => true
  | .read _ => true
  | .write _ => true
  | .readTyped _ => true
  | .writeTyped _ => true
  | .kindPing _ _ m => messageOk m
  | .kindPingReply _ _ m => messageOk m
  | .kindAckOk _ _ m => messageOk m
  | .kindAckNok _ _ m => messageOk m
  | .kindSleep _ _ m => messageOk m
  | .kindResetSoft _ _ m => messageOk m
  | .kindResetHard _ _ m => messageOk m
  | .kindReadReg _ _ m => messageOk m
  | .kindReadReply _ _ m => messageOk m
  | .kindWriteReg _ _ m => messageOk m
  | .kindGetInfo _ _ m => messageOk m
  | .kindInfoReply _ _ m => messageOk m
  | .kindSync _ _ m => messageOk m

end Sys2Proof
end

