-- ==== Sys2Proof/Decode.lean ====
section
/-! DEFINITION. From bits to instructions and back: the byte-list primitives of 00_scope.md R10, the checksum and frame
codec of 40_codec.md section 1, the command word of 30_encoding.md section 1, the decoder of both forms (total, each
rejection named) and the encoder. -/

namespace Sys2Proof

/-! ### Byte lists (R10) -/

/-- `v[lo+7:lo]` (R9). -/
def byteAt (v : Word) (lo : Nat) : Byte := v.extractLsb' lo 8

/-- `le16(v)` (R10), `v` a 16-bit offset. -/
def le16 (v : Nat) : List Byte := [BitVec.ofNat 8 v, BitVec.ofNat 8 (v / 256)]

/-- `le32(v)` (R10). -/
def le32 (v : Word) : List Byte := [byteAt v 0, byteAt v 8, byteAt v 16, byteAt v 24]

/-- `fromLE(bs)` (R10). -/
def fromLE : List Byte → Nat
  | [] => 0
  | b :: bs => b.toNat + 256 * fromLE bs

/-- The word that four bytes make, the first in bits 7:0 (R63). -/
def packWord (b0 b1 b2 b3 : Byte) : Word :=
  b0.setWidth 32 ||| (b1.setWidth 32 <<< 8) ||| (b2.setWidth 32 <<< 16) ||| (b3.setWidth 32 <<< 24)

/-- A byte list's length as a byte. -/
def lenByte (n : Nat) : Byte := BitVec.ofNat 8 n

/-! ### Checksums (R110 to R112) -/

/-- One of the eight rounds of `crc8` (R111). -/
def crc8Bit (c : Byte) : Byte :=
  if c.getLsbD 7 then (c <<< 1) ^^^ 0x07 else c <<< 1

/-- Eight rounds: what `crc8` does to `c XOR b` for one byte (R111). -/
def crc8Step (c : Byte) : Byte :=
  crc8Bit (crc8Bit (crc8Bit (crc8Bit (crc8Bit (crc8Bit (crc8Bit (crc8Bit c)))))))

/-- `crc8` from a given register value. -/
def crc8From (c : Byte) : List Byte → Byte
  | [] => c
  | b :: bs => crc8From (crc8Step (c ^^^ b)) bs

/-- `crc8(bs)` (R111). -/
def crc8 (bs : List Byte) : Byte := crc8From 0x00 bs

/-- The 8-bit sum of a byte list. -/
def sum8 : List Byte → Byte
  | [] => 0
  | b :: bs => b + sum8 bs

/-- `sum2c(bs)`: the two's complement of the 8-bit sum (R112). -/
def sum2c (bs : List Byte) : Byte := 0 - sum8 bs

/-- `checksum(bs)` under `CHK_ALG` (R110). -/
def checksum (alg : ChkAlg) (bs : List Byte) : Byte :=
  match alg with
  | .crc8 => crc8 bs
  | .sum2c => sum2c bs

/-! ### Error codes (R242) -/

/-- The eleven error codes `STATUS.ERR` can hold (60_exceptions.md R242). -/
inductive ErrCode where
  | ok
  | timeout
  | checksumError
  | messageIncomplete
  | writeErrorReadOnly
  | payloadTooLarge
  | badSoh
  | badLen
  | unexpectedReply
  | badRequest
  | illegalCmd
deriving DecidableEq, Repr

/-- The number of an error code (R242). -/
def ErrCode.code : ErrCode → Byte
  | .ok => 0x00
  | .timeout => 0x01
  | .checksumError => 0x02
  | .messageIncomplete => 0x03
  | .writeErrorReadOnly => 0x04
  | .payloadTooLarge => 0x05
  | .badSoh => 0x06
  | .badLen => 0x07
  | .unexpectedReply => 0x08
  | .badRequest => 0x09
  | .illegalCmd => 0x0A

/-! ### Frames (R90 to R93, R114 to R117) -/

/-- A message: a decoded frame (R14). -/
structure Message where
  src : Byte
  dst : Byte
  kind : Byte
  m : List Byte
deriving DecidableEq, Repr

/-- Every byte of a message's frame before its checksum (R90). -/
def frameHead (msg : Message) : List Byte :=
  [SOH, lenByte (MIN_LEN + msg.m.length), msg.src, msg.dst, msg.kind] ++ msg.m

/-- The frame of a message, whatever the message's length (R90). -/
def frameOf (alg : ChkAlg) (msg : Message) : List Byte :=
  frameHead msg ++ [checksum alg (frameHead msg)]

/-- `encode(src, dst, kind, M)`, the codec's function (R114). -/
def encodeFrame (alg : ChkAlg) (src dst kind : Byte) (m : List Byte) : Except ErrCode (List Byte) :=
  if MAX_M < m.length then .error .payloadTooLarge
  else .ok (frameOf alg { src := src, dst := dst, kind := kind, m := m })

/-- `decode(B)`, the codec's function, checks in the order of R117 (R116). -/
def decodeFrame (alg : ChkAlg) (b : List Byte) : Except ErrCode Message :=
  if b.length = 0 then .error .messageIncomplete
  else if b.getD 0 0 ≠ SOH then .error .badSoh
  else if b.length < 2 then .error .messageIncomplete
  else
    let n := (b.getD 1 0).toNat
    if n < MIN_LEN then .error .badLen
    else if b.length < n then .error .messageIncomplete
    else if n < b.length then .error .badLen
    else if b.getD (n - 1) 0 ≠ checksum alg (b.take (n - 1)) then .error .checksumError
    else .ok { src := b.getD 2 0, dst := b.getD 3 0, kind := b.getD 4 0, m := (b.take (n - 1)).drop 5 }

/-! ### The command word (R80, R83, R86) -/

/-- `OP = CMD[7:0]`. -/
def cmdOp (v : Word) : Byte := byteAt v 0
/-- `DST = CMD[15:8]`. -/
def cmdDst (v : Word) : Byte := byteAt v 8
/-- `KIND = CMD[23:16]`. -/
def cmdKind (v : Word) : Byte := byteAt v 16

/-- The command word with these fields, reserved bits 0 (R80, R88). -/
def cmdWord (op dst kind : Byte) : Word := packWord op dst kind 0

/-! ### Decoding -/

/-- Why bits are no instruction. -/
inductive DecodeError where
  /-- `OP` is not a command (R84). -/
  | illegalCommand (op : Byte)
  /-- The bytes are no frame (R116); the code says why. -/
  | badFrame (e : ErrCode)
  /-- The frame's kind has no name (R94, R96). -/
  | unnamedKind (kind : Byte)
deriving DecidableEq, Repr

/-- The bits of an instruction: a word written to CMD, or the bytes of a frame. -/
inductive Code where
  | cmd (v : Word)
  | frame (bs : List Byte)
deriving DecidableEq, Repr

/-- The kind with this code, if any (R94). -/
def kindOf (kc : KindCodes) (b : Byte) : Option Kind :=
  Kind.all.find? (fun k => kc.code k == b)

/-- The instruction that a received message of a named kind is. -/
def instrOfKind (k : Kind) (src dst : Byte) (m : List Byte) : Instr :=
  match k with
  | .ping => .kindPing src dst m
  | .pingReply => .kindPingReply src dst m
  | .ackOk => .kindAckOk src dst m
  | .ackNok => .kindAckNok src dst m
  | .sleep => .kindSleep src dst m
  | .resetSoft => .kindResetSoft src dst m
  | .resetHard => .kindResetHard src dst m
  | .readReg => .kindReadReg src dst m
  | .readReply => .kindReadReply src dst m
  | .writeReg => .kindWriteReg src dst m
  | .getInfo => .kindGetInfo src dst m
  | .infoReply => .kindInfoReply src dst m
  | .sync => .kindSync src dst m

/-- The command of a command word, by `CMD[7:0]` alone (R83). -/
def decodeCmd (v : Word) : Except DecodeError Instr :=
  match (cmdOp v).toNat with
  | 0x01 => .ok .checksum
  | 0x02 => .ok (.encode (cmdDst v) (cmdKind v))
  | 0x03 => .ok .decode
  | 0x04 => .ok .flush
  | 0x10 => .ok (.exchange (cmdDst v) (cmdKind v))
  | 0x11 => .ok (.send (cmdDst v) (cmdKind v))
  | 0x20 => .ok (.ping (cmdDst v))
  | 0x21 => .ok (.resetSoft (cmdDst v))
  | 0x22 => .ok (.resetHard (cmdDst v))
  | 0x23 => .ok (.sleep (cmdDst v))
  | 0x24 => .ok (.getInfo (cmdDst v))
  | 0x25 => .ok .sync
  | 0x26 => .ok .pingLatest
  | 0x30 => .ok (.read (cmdDst v))
  | 0x31 => .ok (.write (cmdDst v))
  | 0x32 => .ok (.readTyped (cmdDst v))
  | 0x33 => .ok (.writeTyped (cmdDst v))
  | _ => .error (.illegalCommand (cmdOp v))

/-- The instruction a decoded message is (R94). -/
def decodeMessage (kc : KindCodes) (msg : Message) : Except DecodeError Instr :=
  match kindOf kc msg.kind with
  | some k => .ok (instrOfKind k msg.src msg.dst msg.m)
  | none => .error (.unnamedKind msg.kind)

/-- The decoder, for the parameter set that numbers the kinds and picks the checksum. -/
def decode (p : ParamSet) (c : Code) : Except DecodeError Instr :=
  match c with
  | .cmd v => decodeCmd v
  | .frame bs =>
    match decodeFrame p.chkAlg bs with
    | .error e => .error (.badFrame e)
    | .ok msg => decodeMessage p.kindCodes msg

/-! ### Encoding -/

/-- The frame of a message of a named kind. -/
def encodeKind (p : ParamSet) (k : Kind) (src dst : Byte) (m : List Byte) : Code :=
  .frame (frameOf p.chkAlg { src := src, dst := dst, kind := p.kindCodes.code k, m := m })

/-- The bits of an instruction; fields a command does not use are 0 (R88). -/
def encode (p : ParamSet) (i : Instr) : Code :=
  match i with
  | .checksum => .cmd (cmdWord 0x01 0 0)
  | .encode dst kind => .cmd (cmdWord 0x02 dst kind)
  | .decode => .cmd (cmdWord 0x03 0 0)
  | .flush => .cmd (cmdWord 0x04 0 0)
  | .exchange dst kind => .cmd (cmdWord 0x10 dst kind)
  | .send dst kind => .cmd (cmdWord 0x11 dst kind)
  | .ping dst => .cmd (cmdWord 0x20 dst 0)
  | .resetSoft dst => .cmd (cmdWord 0x21 dst 0)
  | .resetHard dst => .cmd (cmdWord 0x22 dst 0)
  | .sleep dst => .cmd (cmdWord 0x23 dst 0)
  | .getInfo dst => .cmd (cmdWord 0x24 dst 0)
  | .sync => .cmd (cmdWord 0x25 0 0)
  | .pingLatest => .cmd (cmdWord 0x26 0 0)
  | .read dst => .cmd (cmdWord 0x30 dst 0)
  | .write dst => .cmd (cmdWord 0x31 dst 0)
  | .readTyped dst => .cmd (cmdWord 0x32 dst 0)
  | .writeTyped dst => .cmd (cmdWord 0x33 dst 0)
  | .kindPing src dst m => encodeKind p .ping src dst m
  | .kindPingReply src dst m => encodeKind p .pingReply src dst m
  | .kindAckOk src dst m => encodeKind p .ackOk src dst m
  | .kindAckNok src dst m => encodeKind p .ackNok src dst m
  | .kindSleep src dst m => encodeKind p .sleep src dst m
  | .kindResetSoft src dst m => encodeKind p .resetSoft src dst m
  | .kindResetHard src dst m => encodeKind p .resetHard src dst m
  | .kindReadReg src dst m => encodeKind p .readReg src dst m
  | .kindReadReply src dst m => encodeKind p .readReply src dst m
  | .kindWriteReg src dst m => encodeKind p .writeReg src dst m
  | .kindGetInfo src dst m => encodeKind p .getInfo src dst m
  | .kindInfoReply src dst m => encodeKind p .infoReply src dst m
  | .kindSync src dst m => encodeKind p .sync src dst m

/-! ### The opcode table's numbering -/

/-- The frame a kind row's 8 bits stand for, every other field zero: FROM 0, DST 0, `M` empty, with the LEN and
CHECKSUM that the layout then requires (R90; log 8). -/
def tableFrame (p : ParamSet) (kind : Byte) : List Byte :=
  frameOf p.chkAlg { src := 0, dst := 0, kind := kind, m := [] }

/-- The bits that the opcode table's `w` of `nbits` bits stands for: an 8-bit row is a wire kind if the byte is a
kind code, else the low byte of a command word; a wider row is a command word (log 8). -/
def tableCode (p : ParamSet) (nbits w : Nat) : Code :=
  if nbits ≤ 8 then
    match kindOf p.kindCodes (BitVec.ofNat 8 w) with
    | some _ => .frame (tableFrame p (BitVec.ofNat 8 w))
    | none => .cmd (BitVec.ofNat 32 w)
  else .cmd (BitVec.ofNat 32 w)

/-- The instruction the decoder reads from an opcode table row's word, under the default parameters. -/
def decodeTableWord (nbits w : Nat) : Option Instr :=
  match decode Config.paramSet (tableCode Config.paramSet nbits w) with
  | .ok i => some i
  | .error _ => none

end Sys2Proof
end

