-- ==== Sys2Proof/Machine/State.lean ====
section
/-! DEFINITION. The engine's state (10_state.md), plain data: the host registers, the buffers' bytes, the internal lists
and timer, the command context and the interrupt output; the parameters beside it (00_scope.md R7); and the model's own
fields (the draw counter, the events still to come, what the ports have shown). -/

namespace Sys2Proof.Machine

/-! ### Events and outputs (00_scope.md R12, 10_state.md R21) -/

/-- An event of the environment (R12). A host access carries its width in bytes, so that a width other than 4 can be
refused (20_memory.md R62). Its address has 12 bits (R60). DESIGN CHOICE: that width, of R7's kind "decision", is fixed at
its default (log 23). -/
inductive Event where
  | hostWrite (size : Nat) (addr : BitVec 12) (v : Word)
  | hostRead (size : Nat) (addr : BitVec 12)
  | rxByte (b : Byte)
  | txTake
  | tick
  | reset
deriving DecidableEq, Repr

/-- What a port shows during an event (R21): the word a host read returns, the byte the link takes. -/
inductive Output where
  | readData (v : Word)
  | txByte (b : Byte)
deriving DecidableEq, Repr

/-! ### STATUS (R26, R34) -/

/-- The sequencer phase (R26). Values 6 and 7 are never held and have no constructor. -/
inductive Phase where
  | idle
  | tx
  | awaitSoh
  | awaitHeader
  | awaitPayload
  | awaitChecksum
deriving DecidableEq, Repr

/-- The fields of STATUS (R34). -/
structure Status where
  busy : Bool
  done : Bool
  nok : Bool
  chkseen : Bool
  lenseen : Bool
  ovr : Bool
  cmderr : Bool
  werr : Bool
  err : ErrCode
  phase : Phase
  prValid : Bool
deriving DecidableEq, Repr

/-- STATUS after Reset: every field 0 (R281). -/
def Status.reset : Status where
  busy := false
  done := false
  nok := false
  chkseen := false
  lenseen := false
  ovr := false
  cmderr := false
  werr := false
  err := .ok
  phase := .idle
  prValid := false

/-! ### The command context (R57) -/

/-- The reply check a running command waits for, with the operands its rule captured (42_device_ops.md R180). -/
inductive ReplyCheck where
  /-- `check_any`, EXCHANGE (R163). -/
  | any
  /-- `check_ping`, with the DST of the PING (R182). -/
  | ping (pinged : Byte)
  /-- `check_ack` (R181). -/
  | ack
  /-- `check_info` (R188). -/
  | info
  /-- `check_read`, with `N` (R213). -/
  | read (n : Nat)
  /-- `check_typed`, with the descriptor (R218). -/
  | typed (d : Descriptor)
deriving DecidableEq, Repr

/-! ### Byte memory of the host window (20_memory.md R61) -/

/-- The three byte buffers (R48 to R50). -/
inductive Buffer where
  | txbuf
  | rxbuf
  | framebuf
deriving DecidableEq, Repr

/-- The bytes of the host window that something has written since the last Reset, by host byte address: addresses
strictly rising. An unlisted address has no byte listed; what it reads as is the draw (R282; log 4). -/
structure Memory where
  cells : List Host.Cell
deriving DecidableEq, Repr

/-- The canonical form of a cell list: addresses strictly rising. (An unlisted address has no listed value, so no entry
equals what an unlisted address holds.) -/
def cellsRising : List Host.Cell → Bool
  | [] => true
  | [_] => true
  | a :: b :: rest => decide (a.1 < b.1) && cellsRising (b :: rest)

/-- The memory is in canonical form. -/
def Memory.wf (m : Memory) : Bool := cellsRising m.cells

/-! ### The state -/

/-- The engine's whole state. -/
structure State where
  /-- The parameters (R7), configuration: no step changes them (log 2). -/
  params : Params
  /-- `CTRL.IE` (R28). -/
  ctrlIE : Bool
  /-- CFG (R29). -/
  cfg : Word
  /-- TIMEOUT (R30). -/
  timeout : Word
  /-- CMD, the 24 bits it stores (R31). -/
  cmd : BitVec 24
  /-- ARG0 (R32). -/
  arg0 : Word
  /-- ARG1 (R33). -/
  arg1 : Word
  /-- STATUS (R34). -/
  status : Status
  /-- RESULT (R43). -/
  result : Word
  /-- RXHDR (R44). -/
  rxhdr : Word
  /-- LATENCY (R45). -/
  latency : Word
  /-- PINGREC (R46). -/
  pingrec : Word
  /-- TXBUF, RXBUF and FRAMEBUF (R48 to R50). -/
  mem : Memory
  /-- How many Resets have drawn the buffers' bytes anew (the model's own; log 4). -/
  draws : Nat
  /-- `FIFO` (R52). -/
  fifo : List Byte
  /-- `PB` (R53). -/
  pb : List Byte
  /-- `CBUF` (R54). -/
  cbuf : List Byte
  /-- `TXQ` (R55). -/
  txq : List Byte
  /-- `TMR` (R56). -/
  tmr : Word
  /-- `CTX`: the reply check awaited; none when no command runs or the command expects no reply (R57; log 11). -/
  ctx : Option ReplyCheck
  /-- `IRQ` (R58). -/
  irq : Bool
  /-- The events still to come, in the order the environment chose (R12; the model's own; log 1). -/
  inputs : List Event
  /-- What the ports have shown, oldest first (R21; the model's own; log 5). -/
  outputs : List Output
deriving DecidableEq, Repr

/-- The parameter set of a state. -/
abbrev State.set (s : State) : ParamSet := s.params.set

/-- CFG after Reset (R27). -/
def cfgReset (p : ParamSet) : Word :=
  packWord p.masterIdRst p.bcastAddrRst p.protoMajor p.protoMinor

/-- The state right after Reset for a parameter set (R281): nothing in memory, so every buffer byte is a draw (R282). -/
def State.resetFor (p : Params) : State where
  params := p
  ctrlIE := false
  cfg := cfgReset p.set
  timeout := p.set.timeoutRst
  cmd := 0
  arg0 := 0
  arg1 := 0
  status := Status.reset
  result := 0
  rxhdr := 0
  latency := 0
  pingrec := 0
  mem := { cells := [] }
  draws := 0
  fifo := []
  pb := []
  cbuf := []
  txq := []
  tmr := 0
  ctx := none
  irq := false
  inputs := []
  outputs := []

/-- The machine right after Reset, with the spec's default parameters (R281, R7). -/
def State.reset : State := State.resetFor Config.params

/-! ### Why a step stops -/

/-- Faults of the machine. The spec has none: no event stops the engine (60_exceptions.md R240; log 20). -/
inductive Fault where
deriving DecidableEq, Repr

/-- What the model gives no meaning. -/
inductive Refusal where
  /-- An instruction without a meaning; raised by no arm. Safe. -/
  | notModelled (mnemonic : String)
  /-- A host access that is not 32 bits wide or not word-aligned; raised by the step on such an event, as
  20_memory.md R62 says a model does. Safe: the run has no meaning past it. -/
  | hostAccess (size : Nat) (addr : BitVec 12)
  /-- `TxTake` while `TXQ` is empty; raised by the step: the event is not enabled and has no step (41_transport.md
  R140). Safe. -/
  | txTakeNotEnabled
deriving DecidableEq, Repr

end Sys2Proof.Machine
end

