-- ==== Sys2Proof/Machine/Flags.lean ====
section
/-! DEFINITION. STATUS as the host sees it (10_state.md R34): the word its fields make, the write-one-to-clear bits, the
phases' numbers (R26), and the interrupt output (R58). -/

namespace Sys2Proof.Machine

/-- The number of a phase (R26). -/
def Phase.code : Phase → Nat
  | .idle => 0
  | .tx => 1
  | .awaitSoh => 2
  | .awaitHeader => 3
  | .awaitPayload => 4
  | .awaitChecksum => 5

/-- The receive phase: the four phases in which the parser runs (R141, R148). -/
def Phase.receiving : Phase → Bool
  | .idle => false
  | .tx => false
  | .awaitSoh => true
  | .awaitHeader => true
  | .awaitPayload => true
  | .awaitChecksum => true

/-- One flag at a bit position of a word. -/
def flagBit (b : Bool) (pos : Nat) : Word :=
  if b then (1 : Word) <<< pos else 0

/-- STATUS as one word (R34). -/
def Status.word (st : Status) : Word :=
  flagBit st.busy 0 ||| flagBit st.done 1 ||| flagBit st.nok 2 ||| flagBit st.chkseen 3 ||| flagBit st.lenseen 4
    ||| flagBit st.ovr 5 ||| flagBit st.cmderr 6 ||| flagBit st.werr 7
    ||| (st.err.code.setWidth 32 <<< 8) ||| (BitVec.ofNat 32 st.phase.code <<< 16) ||| flagBit st.prValid 19

/-- A host write to STATUS: each W1C bit written as 1 is cleared; every other bit is read-only (R34). Clearing DONE is
how the host acknowledges a completion (60_exceptions.md R248). -/
def Status.writeOneToClear (st : Status) (v : Word) : Status :=
  { st with
    done := st.done && !v.getLsbD 1
    ovr := st.ovr && !v.getLsbD 5
    cmderr := st.cmderr && !v.getLsbD 6
    werr := st.werr && !v.getLsbD 7 }

/-- `IRQ = STATUS.DONE AND CTRL.IE`, recomputed after every event (R58, R140). -/
def State.recomputeIrq (s : State) : State :=
  { s with irq := s.status.done && s.ctrlIE }

end Sys2Proof.Machine
end

