-- ==== Sys2Proof/Machine/Operands.lean ====
section
/-! DEFINITION. Operands: the fields of CFG, ARG0 and ARG1 (30_encoding.md R86, 10_state.md R29, R32, R33), and the
address decoder over `REGMAP` with the DESC words (43_register_access.md R212, 30_encoding.md R100). -/

namespace Sys2Proof.Machine

/-! ### Register fields -/

/-- `CFG.MASTER_ID` (R29). -/
def State.masterId (s : State) : Byte := byteAt s.cfg 0
/-- `CFG.BCAST` (R29). -/
def State.bcast (s : State) : Byte := byteAt s.cfg 8
/-- `CFG.EXP_MAJOR` (R29). -/
def State.expMajor (s : State) : Byte := byteAt s.cfg 16
/-- `CFG.EXP_MINOR` (R29). -/
def State.expMinor (s : State) : Byte := byteAt s.cfg 24

/-- `OFFSET = ARG0[15:0]` (R86). -/
def State.offset (s : State) : Nat := (s.arg0.extractLsb' 0 16).toNat
/-- `N = ARG0[23:16]` (R86). -/
def State.n (s : State) : Nat := (byteAt s.arg0 16).toNat
/-- `REGID = ARG0[31:24]` (R86). -/
def State.regid (s : State) : Nat := (byteAt s.arg0 24).toNat
/-- `VALUE = ARG1[31:0]` (R86). -/
def State.value (s : State) : Word := s.arg1

/-- `PINGREC.MAJOR` (R46). -/
def State.pingMajor (s : State) : Byte := byteAt s.pingrec 0
/-- `PINGREC.MINOR` (R46). -/
def State.pingMinor (s : State) : Byte := byteAt s.pingrec 8
/-- `PINGREC.SRC` (R46). -/
def State.pingSrc (s : State) : Byte := byteAt s.pingrec 16
/-- `PINGREC.PINGED` (R46). -/
def State.pinged (s : State) : Byte := byteAt s.pingrec 24

/-- The code of a kind under the state's parameters (R94). -/
def State.code (s : State) (k : Kind) : Byte := s.set.kindCodes.code k

/-- `checksum` under the state's `CHK_ALG` (R110). -/
def State.sum (s : State) (bs : List Byte) : Byte := checksum s.set.chkAlg bs

/-! ### Counts of received bytes -/

/-- `|PB| + |FIFO|` (R47). -/
def State.unparsed (s : State) : Nat := s.pb.length + s.fifo.length

/-- RXLEVEL: the count in bits 15:0, bits 31:16 read 0 (R47). A count above 65535 has no stated reading: a free value
(log 12). -/
def rxLevelWord (n : Nat) : Word :=
  if n < 65536 then BitVec.ofNat 32 n else Config.countOverflow n &&& 0x0000FFFF

/-- A count as a 32-bit result, `zext_32` (R165). A count of 2^32 or more has no stated result: a free value (log 12). -/
def countWord (n : Nat) : Word :=
  if n < 4294967296 then BitVec.ofNat 32 n else Config.countOverflow n

/-! ### The address decoder (R212) -/

/-- `covers(d, o, n)`: the ranges `o .. o+n-1` and `d`'s meet (R212). -/
def covers (d : Descriptor) (o n : Nat) : Bool :=
  decide (d.offset < o + n) && decide (o < d.offset + d.width)

/-- `hits(o, n)`: the REGIDs a range touches, in REGID order (R212). -/
def hits (regmap : List Descriptor) (o n : Nat) : List Nat :=
  (List.range regmap.length).filter fun i =>
    match regmap[i]? with
    | some d => covers d o n
    | none => false

/-- `ro_hit(o, n)`: the range touches a read-only register (R212, R215). -/
def roHit (regmap : List Descriptor) (o n : Nat) : Bool :=
  (hits regmap o n).any fun i =>
    match regmap[i]? with
    | some d => d.ro
    | none => false

/-- `lookup(id)` (R212). -/
def lookup (regmap : List Descriptor) (id : Nat) : Option Descriptor := regmap[id]?

/-- The DESC word of a descriptor (R100). -/
def descWord (d : Descriptor) : Word :=
  BitVec.ofNat 32 d.offset ||| (BitVec.ofNat 32 d.width <<< 16) ||| (BitVec.ofNat 32 d.type.code <<< 24)
    ||| flagBit d.nv 27 ||| flagBit d.ro 28 ||| flagBit true 31

/-- Word `i` of the DESC window (R51). -/
def descWindow (regmap : List Descriptor) (i : Nat) : Word :=
  match lookup regmap i with
  | some d => descWord d
  | none => 0

end Sys2Proof.Machine
end

