-- ==== Sys2Proof/Machine/Ops.lean ====
section
/-! DEFINITION. The operations the meanings share: the buffers' bytes (10_state.md R48 to R50), completion and errors
(60_exceptions.md R241, R243: what a processor's exception entry is here), acceptance (41_transport.md R158),
transmission and the exchange (R151, R156), the RX FIFO (R141), and the record of a delivered message (R157). -/

namespace Sys2Proof.Machine

/-! ### Byte memory -/

/-- The byte listed at an address, if any. -/
def cellsRead : List Host.Cell → Nat → Option Byte
  | [], _ => none
  | c :: rest, a => if c.1 = a then some c.2 else cellsRead rest a

/-- Lists a byte at an address, keeping the addresses rising. -/
def cellsWrite : List Host.Cell → Nat → Byte → List Host.Cell
  | [], a, b => [(a, b)]
  | c :: rest, a, b =>
    if a < c.1 then (a, b) :: c :: rest
    else if a = c.1 then (a, b) :: rest
    else c :: cellsWrite rest a b

/-- The byte listed at a host byte address, if any. -/
def Memory.read (m : Memory) (a : Nat) : Option Byte := cellsRead m.cells a

/-- Stores one byte. -/
def Memory.write (m : Memory) (a : Nat) (b : Byte) : Memory := { cells := cellsWrite m.cells a b }

/-- Stores bytes at rising addresses from `a` (`MemWrite`, R11). -/
def Memory.writeBytes (m : Memory) (a : Nat) : List Byte → Memory
  | [] => m
  | b :: bs => (m.write a b).writeBytes (a + 1) bs

/-- The byte of a buffer at a host byte address: the one last written, or the draw of the last Reset (R282). -/
def State.readByte (s : State) (a : Nat) : Byte :=
  match s.mem.read a with
  | some b => b
  | none => Config.bufferDraw s.draws a

/-- `MemRead(addr, n)` over the buffers (R11). -/
def State.readBytes (s : State) (a n : Nat) : List Byte :=
  (List.range n).map fun i => s.readByte (a + i)

/-- The first host byte address of a buffer (R48 to R50). -/
def Buffer.base : Buffer → Nat
  | .txbuf => 0x100
  | .rxbuf => 0x200
  | .framebuf => 0x300

/-- The first `n` bytes of a buffer. -/
def State.load (s : State) (buf : Buffer) (n : Nat) : List Byte := s.readBytes buf.base n

/-- Writes bytes from the start of a buffer, 256 at the most. -/
def State.store (s : State) (buf : Buffer) (bs : List Byte) : State :=
  { s with mem := s.mem.writeBytes buf.base (bs.take BUF_SIZE) }

/-! ### Completion and errors (R241, R243) -/

/-- `finish()`: the step both exits share (R243). No command runs after it, so no reply check is awaited (R57). -/
def State.finish (s : State) : State :=
  { s with
    txq := []
    cbuf := []
    ctx := none
    status := { s.status with phase := .idle, busy := false, done := true }
    irq := s.ctrlIE }

/-- `complete()`: ends the running command without error; `STATUS.ERR` keeps the OK that acceptance wrote (R243). -/
def State.complete (s : State) : State := s.finish

/-- `raise E`: ends the running command with error `E` (R241). -/
def State.raise (s : State) (e : ErrCode) : State :=
  State.finish { s with status := { s.status with err := e } }

/-! ### The arbiter (R158) -/

/-- Command acceptance, up to the run of the command's rule: `HostWrite(CMD, v)` while BUSY = 0 (R158). -/
def State.accept (s : State) (v : Word) : State :=
  { s with
    cmd := v.setWidth 24
    status :=
      { s.status with
        busy := true
        done := false
        err := .ok
        nok := false
        chkseen := false
        lenseen := false
        prValid := s.status.prValid && !(cmdOp v == 0x20) }
    result := 0
    rxhdr := 0
    latency := 0 }

/-! ### Transmission (R151, R156) -/

/-- `emit(F)`: the frame's bytes are queued and the phase is TX (R151). -/
def State.emit (s : State) (f : List Byte) : State :=
  { s with txq := f, status := { s.status with phase := .tx } }

/-- The frame a wire command sends, FROM the master id, or PAYLOAD_TOO_LARGE (R114, R156). -/
def State.request (s : State) (dst kind : Byte) (m : List Byte) : Except ErrCode (List Byte) :=
  encodeFrame s.set.chkAlg s.masterId dst kind m

/-- `exchange(dst, kind, M, check)` (R156). -/
def State.exchange (s : State) (dst kind : Byte) (m : List Byte) (check : ReplyCheck) : State :=
  match s.request dst kind m with
  | .error e => s.raise e
  | .ok f => State.emit { s with ctx := some check } f

/-- Sends a frame and awaits no reply (R164, R189). -/
def State.sendOnly (s : State) (dst kind : Byte) (m : List Byte) : State :=
  match s.request dst kind m with
  | .error e => s.raise e
  | .ok f => State.emit { s with ctx := none } f

/-! ### Reception (R141, R157) -/

/-- Stores a received byte in the FIFO, or drops it and sets OVR when the FIFO is full (R141). -/
def State.pushRx (s : State) (b : Byte) : State :=
  if s.fifo.length < s.set.rxFifoDepth then { s with fifo := s.fifo ++ [b] }
  else { s with status := { s.status with ovr := true } }

/-- Stores received bytes one after the other (R141). -/
def State.pushRxAll (s : State) : List Byte → State
  | [] => s
  | b :: bs => (s.pushRx b).pushRxAll bs

/-- RXHDR for a message (R44). -/
def rxHeader (msg : Message) : Word := packWord msg.src msg.dst msg.kind (lenByte msg.m.length)

/-- Records a delivered message in RXHDR and RXBUF (R44, R49, R157). -/
def State.recordMessage (s : State) (msg : Message) : State :=
  State.store { s with rxhdr := rxHeader msg } .rxbuf msg.m

/-! ### Outcomes -/

/-- Goes on from a next state; a fault or a refusal stays. -/
def onNext (o : Host.Outcome State Fault Refusal) (f : State → State) : Host.Outcome State Fault Refusal :=
  match o with
  | .next s => .next (f s)
  | .fault r => .fault r
  | .refused r => .refused r

end Sys2Proof.Machine
end

