-- ==== Sys2Proof/Machine/Checks.lean ====
section
/-! DEFINITION. The reply checks (42_device_ops.md R180, R181), the typed decode and encode (43_register_access.md R216,
R217), and `deliver` (41_transport.md R157). -/

namespace Sys2Proof.Machine

/-! ### Typed values -/

/-- Typed decode of a register's reply bytes (R216). -/
def typedDecode (d : Descriptor) (m : List Byte) : Word :=
  match d.type with
  | .float32 => BitVec.ofNat 32 (fromLE (m.take 4))
  | .uint32 => BitVec.ofNat 32 (fromLE (m.take 4))
  | .uint8 => (m.getD 0 0).setWidth 32
  | .bitflags => BitVec.ofNat 32 (fromLE (m.take d.width))
  | .bytebuf => BitVec.ofNat 32 d.width

/-- Typed encode of VALUE, or of TXBUF for a byte buffer (R217). -/
def State.typedEncode (s : State) (d : Descriptor) (value : Word) : Except ErrCode (List Byte) :=
  match d.type with
  | .float32 => .ok (le32 value)
  | .uint32 => .ok (le32 value)
  | .uint8 => if 0xFF < value.toNat then .error .badRequest else .ok [byteAt value 0]
  | .bitflags =>
    if d.width < 4 ∧ 2 ^ (8 * d.width) ≤ value.toNat then .error .badRequest
    else .ok ((le32 value).take d.width)
  | .bytebuf => if MAX_WDATA < d.width then .error .payloadTooLarge else .ok (s.load .txbuf d.width)

/-! ### Checks -/

/-- The two branches every check but EXCHANGE's ends with (R181). -/
def State.refusedOrUnexpected (s : State) (msg : Message) : State :=
  if msg.kind = s.code .ackNok then State.complete { s with status := { s.status with nok := true } }
  else s.raise .unexpectedReply

/-- `check_any` (R163). -/
def checkAny (msg : Message) (s : State) : State :=
  State.complete { s with result := countWord msg.m.length }

/-- `check_ping` (R182). -/
def checkPing (pinged : Byte) (msg : Message) (s : State) : State :=
  if msg.kind = s.code .pingReply ∧ msg.m.length = 2 then
    State.complete
      { s with
        pingrec := packWord (msg.m.getD 0 0) (msg.m.getD 1 0) msg.src pinged
        status := { s.status with prValid := true }
        result := s.latency }
  else s.refusedOrUnexpected msg

/-- `check_ack` (R181). -/
def checkAck (msg : Message) (s : State) : State :=
  if msg.kind = s.code .ackOk ∧ msg.m.length = 0 then s.complete
  else s.refusedOrUnexpected msg

/-- `check_info` (R188). -/
def checkInfo (msg : Message) (s : State) : State :=
  if msg.kind = s.code .infoReply then State.complete { s with result := countWord msg.m.length }
  else s.refusedOrUnexpected msg

/-- `check_read` (R213). -/
def checkRead (n : Nat) (msg : Message) (s : State) : State :=
  if msg.kind = s.code .readReply ∧ msg.m.length = n then State.complete { s with result := BitVec.ofNat 32 n }
  else s.refusedOrUnexpected msg

/-- `check_typed` (R218). -/
def checkTyped (d : Descriptor) (msg : Message) (s : State) : State :=
  if msg.kind = s.code .readReply ∧ msg.m.length = d.width then
    State.complete { s with result := typedDecode d msg.m }
  else s.refusedOrUnexpected msg

/-- The reply check a command waits for (R180). -/
def ReplyCheck.run (c : ReplyCheck) (msg : Message) (s : State) : State :=
  match c with
  | .any => checkAny msg s
  | .ping pinged => checkPing pinged msg s
  | .ack => checkAck msg s
  | .info => checkInfo msg s
  | .read n => checkRead n msg s
  | .typed d => checkTyped d msg s

/-! ### Delivery -/

/-- `deliver(msg)`: the message is recorded and the command's check decides how it completes (R157). -/
def State.deliver (s : State) (c : ReplyCheck) (msg : Message) : State :=
  c.run msg (s.recordMessage msg)

/-- A whole frame meets the engine: in a receive phase it is delivered to the running command's check (R146, R157);
outside one its bytes are stored and not parsed (R141; log 7). -/
def State.receiveMessage (s : State) (msg : Message) : State :=
  if s.status.phase.receiving then
    match s.ctx with
    | some c => s.deliver c msg
    | none => s.pushRxAll (frameOf s.set.chkAlg msg)
  else s.pushRxAll (frameOf s.set.chkAlg msg)

/-- A received frame of a named kind. -/
def State.receiveKind (s : State) (k : Kind) (src dst : Byte) (m : List Byte) : State :=
  s.receiveMessage { src := src, dst := dst, kind := s.code k, m := m }

end Sys2Proof.Machine
end

