-- ==== Sys2Proof/Machine/Codec.lean ====
section
/-! DEFINITION. The local codec commands CHECKSUM, ENCODE and DECODE (40_codec.md R121 to R123). Acceptance (R158) has
run before each. -/

namespace Sys2Proof.Machine

/-- CHECKSUM (R121). -/
def execChecksum (s : State) : Host.Outcome State Fault Refusal :=
  .next (State.complete { s with result := (s.sum (s.load .txbuf s.n)).setWidth 32 })

/-- ENCODE (R122). -/
def execEncode (dst kind : Byte) (s : State) : Host.Outcome State Fault Refusal :=
  match s.request dst kind (s.load .txbuf s.n) with
  | .error e => .next (s.raise e)
  | .ok f => .next (State.complete { s.store .framebuf f with result := countWord f.length })

/-- DECODE (R123). -/
def execDecode (s : State) : Host.Outcome State Fault Refusal :=
  match decodeFrame s.set.chkAlg (s.load .framebuf s.n) with
  | .error e => .next (s.raise e)
  | .ok msg => .next (State.complete { s.recordMessage msg with result := BitVec.ofNat 32 s.n })

end Sys2Proof.Machine
end

