-- ==== Sys2Proof/Machine/Device.lean ====
section
/-! DEFINITION. The device operations (42_device_ops.md R182 to R189). Acceptance (R158) has run before each. -/

namespace Sys2Proof.Machine

/-- PING (R182). -/
def execPing (dst : Byte) (s : State) : Host.Outcome State Fault Refusal :=
  .next (s.exchange dst (s.code .ping) [] (.ping dst))

/-- RESET_SOFT (R185). -/
def execResetSoft (dst : Byte) (s : State) : Host.Outcome State Fault Refusal :=
  .next (s.exchange dst (s.code .resetSoft) [] .ack)

/-- RESET_HARD (R186). -/
def execResetHard (dst : Byte) (s : State) : Host.Outcome State Fault Refusal :=
  .next (s.exchange dst (s.code .resetHard) [] .ack)

/-- SLEEP (R187). -/
def execSleep (dst : Byte) (s : State) : Host.Outcome State Fault Refusal :=
  .next (s.exchange dst (s.code .sleep) (le32 s.value) .ack)

/-- GET_INFO (R188). -/
def execGetInfo (dst : Byte) (s : State) : Host.Outcome State Fault Refusal :=
  .next (s.exchange dst (s.code .getInfo) [] .info)

/-- SYNC (R189). -/
def execSync (s : State) : Host.Outcome State Fault Refusal :=
  .next (s.sendOnly s.bcast (s.code .sync) [])

/-- Whether the ping record is current (R184). -/
def State.pingLatest (s : State) : Bool :=
  s.status.prValid && (s.pingMajor == s.expMajor) && (s.pingMinor == s.expMinor) && (s.pingSrc == s.pinged)

/-- PING_LATEST (R184). -/
def execPingLatest (s : State) : Host.Outcome State Fault Refusal :=
  .next (State.complete { s with result := if s.pingLatest then 1 else 0 })

end Sys2Proof.Machine
end

