-- ==== Sys2Proof/Machine/RegisterAccess.lean ====
section
/-! DEFINITION. Raw and typed access to a leaf's registers (43_register_access.md R213, R214, R218, R219). Acceptance
(R158) has run before each. -/

namespace Sys2Proof.Machine

/-- The pre-flight checks of READ, in R213's order. -/
def State.readPreflight (s : State) : Option ErrCode :=
  if s.n = 0 then some .badRequest
  else if MAX_READ < s.n then some .payloadTooLarge
  else if LEAF_SPACE < s.offset + s.n then some .badRequest
  else none

/-- READ (R213). -/
def execRead (dst : Byte) (s : State) : Host.Outcome State Fault Refusal :=
  match s.readPreflight with
  | some e => .next (s.raise e)
  | none => .next (s.exchange dst (s.code .readReg) (le16 s.offset ++ [lenByte s.n]) (.read s.n))

/-- The pre-flight checks of WRITE, in R214's order. -/
def State.writePreflight (s : State) : Option ErrCode :=
  if s.n = 0 then some .badRequest
  else if MAX_WDATA < s.n then some .payloadTooLarge
  else if LEAF_SPACE < s.offset + s.n then some .badRequest
  else if roHit s.set.regmap s.offset s.n then some .writeErrorReadOnly
  else none

/-- WRITE (R214). -/
def execWrite (dst : Byte) (s : State) : Host.Outcome State Fault Refusal :=
  match s.writePreflight with
  | some e => .next (s.raise e)
  | none => .next (s.exchange dst (s.code .writeReg) (le16 s.offset ++ s.load .txbuf s.n) .ack)

/-- READ_TYPED (R218). -/
def execReadTyped (dst : Byte) (s : State) : Host.Outcome State Fault Refusal :=
  match lookup s.set.regmap s.regid with
  | none => .next (s.raise .badRequest)
  | some d => .next (s.exchange dst (s.code .readReg) (le16 d.offset ++ [lenByte d.width]) (.typed d))

/-- WRITE_TYPED (R219). -/
def execWriteTyped (dst : Byte) (s : State) : Host.Outcome State Fault Refusal :=
  match lookup s.set.regmap s.regid with
  | none => .next (s.raise .badRequest)
  | some d =>
    if d.ro then .next (s.raise .writeErrorReadOnly)
    else
      match s.typedEncode d s.value with
      | .error e => .next (s.raise e)
      | .ok data => .next (s.exchange dst (s.code .writeReg) (le16 d.offset ++ data) .ack)

end Sys2Proof.Machine
end

