-- ==== Sys2Proof/Machine/Transport.lean ====
section
/-! DEFINITION. The commands that use the transport directly: EXCHANGE, SEND and FLUSH (41_transport.md R163 to R165).
Acceptance (R158) has run before each. -/

namespace Sys2Proof.Machine

/-- EXCHANGE (R163). -/
def execExchange (dst kind : Byte) (s : State) : Host.Outcome State Fault Refusal :=
  .next (s.exchange dst kind (s.load .txbuf s.n) .any)

/-- SEND (R164). -/
def execSend (dst kind : Byte) (s : State) : Host.Outcome State Fault Refusal :=
  .next (s.sendOnly dst kind (s.load .txbuf s.n))

/-- FLUSH (R165). -/
def execFlush (s : State) : Host.Outcome State Fault Refusal :=
  .next (State.complete { s with result := countWord s.unparsed, pb := [], fifo := [] })

end Sys2Proof.Machine
end

