-- ==== Sys2Proof/Machine/Wire.lean ====
section
/-! DEFINITION. The wire message kinds (30_encoding.md R94, R95): what the engine does with a received frame of each kind
(41_transport.md R141, R146, R157; the reply checks of 42_device_ops.md R180). The codec is kind-blind (R96): each kind
meets the same delivery, and the running command's check compares its code (log 6). -/

namespace Sys2Proof.Machine

/-- A received frame of kind PING (R95, R182). -/
def execKindPing (src dst : Byte) (m : List Byte) (s : State) : Host.Outcome State Fault Refusal :=
  .next (s.receiveKind .ping src dst m)

/-- A received frame of kind PING_REPLY (R95, R182). -/
def execKindPingReply (src dst : Byte) (m : List Byte) (s : State) : Host.Outcome State Fault Refusal :=
  .next (s.receiveKind .pingReply src dst m)

/-- A received frame of kind ACK_OK (R95, R181). -/
def execKindAckOk (src dst : Byte) (m : List Byte) (s : State) : Host.Outcome State Fault Refusal :=
  .next (s.receiveKind .ackOk src dst m)

/-- A received frame of kind ACK_NOK (R95, R181). -/
def execKindAckNok (src dst : Byte) (m : List Byte) (s : State) : Host.Outcome State Fault Refusal :=
  .next (s.receiveKind .ackNok src dst m)

/-- A received frame of kind SLEEP (R95, R187). -/
def execKindSleep (src dst : Byte) (m : List Byte) (s : State) : Host.Outcome State Fault Refusal :=
  .next (s.receiveKind .sleep src dst m)

/-- A received frame of kind RESET_SOFT (R95, R185). -/
def execKindResetSoft (src dst : Byte) (m : List Byte) (s : State) : Host.Outcome State Fault Refusal :=
  .next (s.receiveKind .resetSoft src dst m)

/-- A received frame of kind RESET_HARD (R95, R186). -/
def execKindResetHard (src dst : Byte) (m : List Byte) (s : State) : Host.Outcome State Fault Refusal :=
  .next (s.receiveKind .resetHard src dst m)

/-- A received frame of kind READ_REG (R95, R213). -/
def execKindReadReg (src dst : Byte) (m : List Byte) (s : State) : Host.Outcome State Fault Refusal :=
  .next (s.receiveKind .readReg src dst m)

/-- A received frame of kind READ_REPLY (R95, R213). -/
def execKindReadReply (src dst : Byte) (m : List Byte) (s : State) : Host.Outcome State Fault Refusal :=
  .next (s.receiveKind .readReply src dst m)

/-- A received frame of kind WRITE_REG (R95, R214). -/
def execKindWriteReg (src dst : Byte) (m : List Byte) (s : State) : Host.Outcome State Fault Refusal :=
  .next (s.receiveKind .writeReg src dst m)

/-- A received frame of kind GET_INFO (R95, R188). -/
def execKindGetInfo (src dst : Byte) (m : List Byte) (s : State) : Host.Outcome State Fault Refusal :=
  .next (s.receiveKind .getInfo src dst m)

/-- A received frame of kind INFO_REPLY (R95, R188). -/
def execKindInfoReply (src dst : Byte) (m : List Byte) (s : State) : Host.Outcome State Fault Refusal :=
  .next (s.receiveKind .infoReply src dst m)

/-- A received frame of kind SYNC (R95, R189). -/
def execKindSync (src dst : Byte) (m : List Byte) (s : State) : Host.Outcome State Fault Refusal :=
  .next (s.receiveKind .sync src dst m)

end Sys2Proof.Machine
end

