-- ==== Sys2Proof/Machine/Dispatch.lean ====
section
/-! DEFINITION. One arm per instruction. -/

namespace Sys2Proof.Machine

def exec (i : Instr) (s : State) : Host.Outcome State Fault Refusal :=
  match i with
  | .checksum => Sys2Proof.Machine.execChecksum s
  | .encode dst kind => Sys2Proof.Machine.execEncode dst kind s
  | .decode => Sys2Proof.Machine.execDecode s
  | .flush => Sys2Proof.Machine.execFlush s
  | .exchange dst kind => Sys2Proof.Machine.execExchange dst kind s
  | .send dst kind => Sys2Proof.Machine.execSend dst kind s
  | .ping dst => Sys2Proof.Machine.execPing dst s
  | .resetSoft dst => Sys2Proof.Machine.execResetSoft dst s
  | .resetHard dst => Sys2Proof.Machine.execResetHard dst s
  | .sleep dst => Sys2Proof.Machine.execSleep dst s
  | .getInfo dst => Sys2Proof.Machine.execGetInfo dst s
  | .sync => Sys2Proof.Machine.execSync s
  | .pingLatest => Sys2Proof.Machine.execPingLatest s
  | .read dst => Sys2Proof.Machine.execRead dst s
  | .write dst => Sys2Proof.Machine.execWrite dst s
  | .readTyped dst => Sys2Proof.Machine.execReadTyped dst s
  | .writeTyped dst => Sys2Proof.Machine.execWriteTyped dst s
  | .kindPing src dst m => Sys2Proof.Machine.execKindPing src dst m s
  | .kindPingReply src dst m => Sys2Proof.Machine.execKindPingReply src dst m s
  | .kindAckOk src dst m => Sys2Proof.Machine.execKindAckOk src dst m s
  | .kindAckNok src dst m => Sys2Proof.Machine.execKindAckNok src dst m s
  | .kindSleep src dst m => Sys2Proof.Machine.execKindSleep src dst m s
  | .kindResetSoft src dst m => Sys2Proof.Machine.execKindResetSoft src dst m s
  | .kindResetHard src dst m => Sys2Proof.Machine.execKindResetHard src dst m s
  | .kindReadReg src dst m => Sys2Proof.Machine.execKindReadReg src dst m s
  | .kindReadReply src dst m => Sys2Proof.Machine.execKindReadReply src dst m s
  | .kindWriteReg src dst m => Sys2Proof.Machine.execKindWriteReg src dst m s
  | .kindGetInfo src dst m => Sys2Proof.Machine.execKindGetInfo src dst m s
  | .kindInfoReply src dst m => Sys2Proof.Machine.execKindInfoReply src dst m s
  | .kindSync src dst m => Sys2Proof.Machine.execKindSync src dst m s

end Sys2Proof.Machine
end

