-- ==== Sys2Proof/Machine/Parser.lean ====
section
/-! DEFINITION. The receive parser (41_transport.md R142 to R148) and the deadline's expiry (R154). A delivery is
returned as the message, so that the step can run the instruction the frame is. -/

namespace Sys2Proof.Machine

/-- Sets the phase. -/
def State.setPhase (s : State) (p : Phase) : State :=
  { s with status := { s.status with phase := p } }

/-- `next_byte()`: the head of `PB`, else of `FIFO`, taken off; none when `S` is empty (R142). -/
def State.nextByte (s : State) : Option (Byte × State) :=
  match s.pb with
  | b :: pb => some (b, { s with pb := pb })
  | [] =>
    match s.fifo with
    | b :: fifo => some (b, { s with fifo := fifo })
    | [] => none

/-- Pushes every candidate byte after its SOH back to the front of `S` (R147, R154). -/
def State.pushBack (s : State) : State :=
  { s with pb := s.cbuf.drop 1 ++ s.pb, cbuf := [] }

/-- `discard()` (R147). -/
def State.discard (s : State) : State := s.pushBack.setPhase .awaitSoh

/-- `CBUF[1]`, the candidate's LEN. -/
def State.candLen (s : State) : Nat := (s.cbuf.getD 1 0).toNat

/-- Phase AWAIT_SOH on a byte (R143). -/
def State.parseSoh (s : State) (b : Byte) : State :=
  if b = SOH then State.setPhase { s with cbuf := [b] } .awaitHeader else s

/-- Phase AWAIT_HEADER on a byte (R144). -/
def State.parseHeader (s : State) (b : Byte) : State :=
  let t : State := { s with cbuf := s.cbuf ++ [b] }
  if t.cbuf.length = 2 ∧ b.toNat < MIN_LEN then
    State.discard { t with status := { t.status with lenseen := true } }
  else if t.cbuf.length = 4 then t.setPhase .awaitPayload
  else t

/-- Phase AWAIT_PAYLOAD on a byte (R145). -/
def State.parsePayload (s : State) (b : Byte) : State :=
  let t : State := { s with cbuf := s.cbuf ++ [b] }
  if t.cbuf.length + 1 = t.candLen then t.setPhase .awaitChecksum else t

/-- The message of the candidate, all of whose bytes but the checksum are in `CBUF` (R146). -/
def State.candidate (s : State) : Message where
  src := s.cbuf.getD 2 0
  dst := s.cbuf.getD 3 0
  kind := s.cbuf.getD 4 0
  m := s.cbuf.drop 5

/-- Phase AWAIT_CHECKSUM on a byte (R146): a matching byte gives the message, any other discards the candidate. -/
def State.parseChecksum (s : State) (b : Byte) : State × Option Message :=
  if b = s.sum s.cbuf then ({ s with cbuf := [] }, some s.candidate)
  else
    let t : State := { s with cbuf := s.cbuf ++ [b], status := { s.status with chkseen := true } }
    (t.discard, none)

/-- One byte of the parse stream, by phase (R148). -/
def State.parseByte (s : State) (b : Byte) : State × Option Message :=
  match s.status.phase with
  | .idle => (s, none)
  | .tx => (s, none)
  | .awaitSoh => (s.parseSoh b, none)
  | .awaitHeader => (s.parseHeader b, none)
  | .awaitPayload => (s.parsePayload b, none)
  | .awaitChecksum => s.parseChecksum b

/-- At most `fuel` bytes of `run_parser()` (R148). -/
def State.parse : Nat → State → State × Option Message
  | 0, s => (s, none)
  | fuel + 1, s =>
    if s.status.phase.receiving then
      match s.nextByte with
      | none => (s, none)
      | some (b, t) =>
        match t.parseByte b with
        | (u, some msg) => (u, some msg)
        | (u, none) => State.parse fuel u
    else (s, none)

/-- More bytes than `run_parser()` can take (R149): each byte taken drops a byte for good or moves one from `S` to the
candidate. -/
def State.parseFuel (s : State) : Nat :=
  (s.cbuf.length + s.unparsed) * (s.cbuf.length + s.unparsed + 1) + s.unparsed + 1

/-- `run_parser()`: parses until a message is delivered or `S` is empty (R148). -/
def State.runParser (s : State) : State × Option Message :=
  State.parse s.parseFuel s

/-- `expire()`: ends the receive phase at the deadline (R154). -/
def State.expire (s : State) : State :=
  if s.status.phase = .awaitSoh then s.raise .timeout
  else s.pushBack.raise .messageIncomplete

end Sys2Proof.Machine
end

