-- ==== Sys2Proof/Machine/Events.lean ====
section
/-! DEFINITION. The engine's response to each event (41_transport.md R140): the host window (20_memory.md R60 to R66), the
arbiter (R158 to R160), the receiver (R141), the transmitter (R152), the timer (R153) and Reset (R280). -/

namespace Sys2Proof.Machine

/-! ### The host window (R61) -/

/-- What a host address holds (R27, R61). -/
inductive Place where
  | ctrl
  | cfg
  | timeout
  | cmd
  | arg0
  | arg1
  | status
  | result
  | rxhdr
  | latency
  | pingrec
  | rxlevel
  /-- A buffer, and the byte of it the address names. -/
  | buffer (buf : Buffer) (index : Nat)
  /-- DESC word `i`. -/
  | desc (i : Nat)
  | reserved
deriving DecidableEq, Repr

/-- The place of a word-aligned host address (R27, R61). -/
def placeOf (addr : BitVec 12) : Place :=
  let a := addr.toNat
  if a < 0x030 then
    if a < 0x004 then .ctrl
    else if a < 0x008 then .cfg
    else if a < 0x00C then .timeout
    else if a < 0x010 then .cmd
    else if a < 0x014 then .arg0
    else if a < 0x018 then .arg1
    else if a < 0x01C then .status
    else if a < 0x020 then .result
    else if a < 0x024 then .rxhdr
    else if a < 0x028 then .latency
    else if a < 0x02C then .pingrec
    else .rxlevel
  else if a < 0x100 then .reserved
  else if a < 0x200 then .buffer .txbuf (a - 0x100)
  else if a < 0x300 then .buffer .rxbuf (a - 0x200)
  else if a < 0x400 then .buffer .framebuf (a - 0x300)
  else if a < 0x500 then .desc ((a - 0x400) / 4)
  else .reserved

/-- A host access the engine defines: 32 bits wide, word-aligned (R62). -/
def hostAccessOk (size : Nat) (addr : BitVec 12) : Bool :=
  decide (size = 4) && decide (addr.toNat % 4 = 0)

/-- A buffer word as the host reads it, little-endian (R63). -/
def State.bufferWord (s : State) (buf : Buffer) (index : Nat) : Word :=
  packWord (s.readByte (buf.base + index)) (s.readByte (buf.base + index + 1)) (s.readByte (buf.base + index + 2))
    (s.readByte (buf.base + index + 3))

/-- The word a host read returns (R27, R61, R63, R64). -/
def State.hostWord (s : State) (addr : BitVec 12) : Word :=
  match placeOf addr with
  | .ctrl => flagBit s.ctrlIE 0
  | .cfg => s.cfg
  | .timeout => s.timeout
  | .cmd => s.cmd.setWidth 32
  | .arg0 => s.arg0
  | .arg1 => s.arg1
  | .status => s.status.word
  | .result => s.result
  | .rxhdr => s.rxhdr
  | .latency => s.latency
  | .pingrec => s.pingrec
  | .rxlevel => rxLevelWord s.unparsed
  | .buffer buf index => s.bufferWord buf index
  | .desc i => descWindow s.set.regmap i
  | .reserved => 0

/-- `HostRead(addr)`: the word goes to the host's port; no state of the engine changes (R65). -/
def hostRead (size : Nat) (addr : BitVec 12) (s : State) : Host.Outcome State Fault Refusal :=
  if hostAccessOk size addr then .next { s with outputs := s.outputs ++ [.readData (s.hostWord addr)] }
  else .refused (.hostAccess size addr)

/-- A protected write: done while idle; ignored, with WERR set, while BUSY (R160). -/
def State.protect (s : State) (written : State) : State :=
  if s.status.busy then { s with status := { s.status with werr := true } } else written

/-- Writes a word's four bytes to a buffer (R63). -/
def State.storeWord (s : State) (buf : Buffer) (index : Nat) (v : Word) : State :=
  { s with mem := s.mem.writeBytes (buf.base + index) (le32 v) }

/-- A write to CMD: starts the command it names (R158), ends at once with ILLEGAL_CMD (R84), or, while BUSY, is refused
with CMDERR (R159). -/
def writeCmd (v : Word) (s : State) : Host.Outcome State Fault Refusal :=
  if s.status.busy then .next { s with status := { s.status with cmderr := true } }
  else
    match decodeCmd v with
    | .ok i => exec i (s.accept v)
    | .error _ => .next ((s.accept v).raise .illegalCmd)

/-- A write to an addressed place (R66). -/
def writePlace (p : Place) (v : Word) (s : State) : Host.Outcome State Fault Refusal :=
  match p with
  | .ctrl => .next { s with ctrlIE := v.getLsbD 0 }
  | .cfg => .next (s.protect { s with cfg := v })
  | .timeout => .next (s.protect { s with timeout := v })
  | .cmd => writeCmd v s
  | .arg0 => .next (s.protect { s with arg0 := v })
  | .arg1 => .next (s.protect { s with arg1 := v })
  | .status => .next { s with status := s.status.writeOneToClear v }
  | .result => .next s
  | .rxhdr => .next s
  | .latency => .next s
  | .pingrec => .next s
  | .rxlevel => .next s
  | .buffer .txbuf index => .next (s.protect (s.storeWord .txbuf index v))
  | .buffer .rxbuf _ => .next s
  | .buffer .framebuf index => .next (s.protect (s.storeWord .framebuf index v))
  | .desc _ => .next s
  | .reserved => .next s

/-- `HostWrite(addr, v)` (R66). -/
def hostWrite (size : Nat) (addr : BitVec 12) (v : Word) (s : State) : Host.Outcome State Fault Refusal :=
  if hostAccessOk size addr then writePlace (placeOf addr) v s
  else .refused (.hostAccess size addr)

/-! ### The link and time -/

/-- A delivered message runs as the instruction its frame is; a kind without a name is delivered all the same (R96). -/
def runMessage (msg : Message) (s : State) : Host.Outcome State Fault Refusal :=
  match decodeMessage s.set.kindCodes msg with
  | .ok i => exec i s
  | .error _ => .next (s.receiveMessage msg)

/-- `run_parser()` with the delivery it may end in (R148). -/
def parseAndDeliver (s : State) : Host.Outcome State Fault Refusal :=
  match s.runParser with
  | (t, none) => .next t
  | (t, some msg) => runMessage msg t

/-- `RxByte(b)` (R141). -/
def rxByte (b : Byte) (s : State) : Host.Outcome State Fault Refusal :=
  if (s.pushRx b).status.phase.receiving then parseAndDeliver (s.pushRx b) else .next (s.pushRx b)

/-- The receive phase begins (R152). -/
def State.startReceive (s : State) : State :=
  State.setPhase { s with tmr := s.timeout } .awaitSoh

/-- A command still running at the start of its receive phase with `TMR = 0` expires at once (R152, R167). -/
def State.expireIfZero (s : State) : State :=
  if s.status.busy ∧ s.tmr = 0 then s.expire else s

/-- What follows the last byte of a request (R152). -/
def afterLastByte (s : State) : Host.Outcome State Fault Refusal :=
  match s.ctx with
  | some _ => onNext (parseAndDeliver s.startReceive) State.expireIfZero
  | none => .next s.complete

/-- `TxTake` (R152); not enabled while `TXQ` is empty (R140). -/
def txTake (s : State) : Host.Outcome State Fault Refusal :=
  match s.txq with
  | [] => .refused .txTakeNotEnabled
  | b :: rest =>
    let t : State := { s with txq := rest, outputs := s.outputs ++ [.txByte b] }
    if rest = [] then afterLastByte t else .next t

/-- `min(LATENCY + 1, 0xFFFFFFFF)` (R45). -/
def satInc (v : Word) : Word := if v = 0xFFFFFFFF then v else v + 1

/-- LATENCY counts a tick while BUSY (R45, R153). -/
def State.countLatency (s : State) : State :=
  if s.status.busy then { s with latency := satInc s.latency } else s

/-- The deadline timer counts a tick in the receive phase (R153). -/
def State.countDown (s : State) : State :=
  if s.status.phase.receiving then
    let t : State := { s with tmr := s.tmr - 1 }
    if t.tmr = 0 then t.expire else t
  else s

/-- `Tick` (R153). -/
def tick (s : State) : Host.Outcome State Fault Refusal :=
  .next s.countLatency.countDown

/-- `Reset` (R280): the reset values (R281), a fresh draw of every buffer byte (R282); the parameters stay, and the
environment's events and what the ports have shown are no state of the engine. -/
def resetEvent (s : State) : Host.Outcome State Fault Refusal :=
  .next
    { State.resetFor s.params with
      draws := s.draws + 1
      inputs := s.inputs
      outputs := s.outputs }

/-! ### One event -/

/-- The engine's response to an event (R140). -/
def respond (e : Event) (s : State) : Host.Outcome State Fault Refusal :=
  match e with
  | .hostWrite size addr v => hostWrite size addr v s
  | .hostRead size addr => hostRead size addr s
  | .rxByte b => rxByte b s
  | .txTake => txTake s
  | .tick => tick s
  | .reset => resetEvent s

/-- An event taken whole, then IRQ recomputed (R12, R58, R140). -/
def handle (e : Event) (s : State) : Host.Outcome State Fault Refusal :=
  onNext (respond e s) State.recomputeIrq

/-! ### Placing an instruction where the next step finds it (log 9) -/

/-- A command word: the next event is the host's write of it to CMD, with the engine idle. -/
def State.withCommand (s : State) (v : Word) : State :=
  { s with
    status := { s.status with busy := false, phase := .idle }
    inputs := .hostWrite 4 0x00C v :: s.inputs }

/-- A frame: an EXCHANGE has received all of it but the checksum, which is the next byte the link delivers. -/
def State.withFrame (s : State) (bs : List Byte) : State :=
  { s with
    status := { s.status with busy := true, done := false, phase := .awaitChecksum }
    cbuf := bs.dropLast
    pb := []
    fifo := []
    txq := []
    ctx := some .any
    inputs := .rxByte (bs.getLastD 0) :: s.inputs }

/-- The bits of an instruction, placed for the next step. -/
def State.withCode (s : State) (c : Code) : State :=
  match c with
  | .cmd v => s.withCommand v
  | .frame bs => s.withFrame bs

end Sys2Proof.Machine
end

