-- ==== Sys2Proof/Machine/Step.lean ====
section
/-! DEFINITION. One step: the next event of the environment, taken whole (00_scope.md R12). -/

namespace Sys2Proof.Machine

/-- One step. With no event to take, the engine changes nothing: it changes state only in response to an event (R12). -/
def step (s : State) : Host.Outcome State Fault Refusal :=
  match s.inputs with
  | [] => .next s
  | e :: rest => handle e { s with inputs := rest }

/-- The instruction of an opcode table row's word, placed where the next step takes it (log 9). -/
def State.withFetchWord (s : State) (nbits w : Nat) : State :=
  s.withCode (tableCode s.set nbits w)

end Sys2Proof.Machine
end

