-- ==== Sys2Proof/Safety.lean ====
section
/-! DEFINITION. The terms claims are stated in: the events the engine has a step for, the shape of a candidate, the
invariant of the engine between events, and the records a command leaves when it ends or starts to transmit. -/

namespace Sys2Proof.Machine

/-! ### Events with a step -/

/-- The event is one the engine gives a meaning in this state: a host access of 32 bits at a word address (R62), a
`TxTake` while bytes are queued (R140), any other event always. -/
def Event.enabled (e : Event) (s : State) : Bool :=
  match e with
  | .hostWrite size addr _ => hostAccessOk size addr
  | .hostRead size addr => hostAccessOk size addr
  | .rxByte _ => true
  | .txTake => !s.txq.isEmpty
  | .tick => true
  | .reset => true

/-! ### Records -/

/-- The state a command leaves when it ends with these STATUS.ERR, STATUS.NOK and RESULT: the completion record of
60_exceptions.md R243 and R247. -/
def State.ended (s : State) (err : ErrCode) (nok : Bool) (result : Word) : State :=
  { s with
    result := result
    status := { s.status with err := err, nok := nok, busy := false, done := true, phase := .idle }
    txq := []
    cbuf := []
    ctx := none
    irq := s.ctrlIE }

/-- The state of a command whose frame has been queued, awaiting `c` (none: no reply) (R151, R156). -/
def State.sending (s : State) (f : List Byte) (c : Option ReplyCheck) : State :=
  { s with txq := f, ctx := c, status := { s.status with phase := .tx } }

/-- The state with a message recorded in RXHDR, RXBUF holding its bytes (R44, R49). -/
def State.recorded (s : State) (msg : Message) : State :=
  { s with
    rxhdr := packWord msg.src msg.dst msg.kind (lenByte msg.m.length)
    mem := s.mem.writeBytes 0x200 (msg.m.take 256) }

/-- The state after acceptance of the command word `v` (R158). -/
def State.accepted (s : State) (v : Word) : State :=
  { s with
    cmd := v.extractLsb' 0 24
    status :=
      { s.status with
        busy := true
        done := false
        err := .ok
        nok := false
        chkseen := false
        lenseen := false
        prValid := if v.extractLsb' 0 8 = 0x20 then false else s.status.prValid }
    result := 0
    rxhdr := 0
    latency := 0 }

/-- The completion record is clear, as acceptance leaves it for the command's rule (R158): no error, no refusal noted,
RESULT 0. -/
def State.Fresh (s : State) : Prop :=
  s.status.err = .ok ∧ s.status.nok = false ∧ s.result = 0

/-- The command waits in its receive phase for the reply check `c`, its record still clear. -/
def State.Awaits (s : State) (c : ReplyCheck) : Prop :=
  s.status.phase.receiving = true ∧ s.ctx = some c ∧ s.Fresh

/-- The frame of a request: FROM the master id (R81, R90). -/
def State.requestFrame (s : State) (dst kind : Byte) (m : List Byte) : List Byte :=
  frameOf s.set.chkAlg { src := s.masterId, dst := dst, kind := kind, m := m }

/-- The message that a frame of a named kind carries. -/
def State.messageOf (s : State) (k : Kind) (src dst : Byte) (m : List Byte) : Message :=
  { src := src, dst := dst, kind := s.code k, m := m }

/-- Every kind's constructor with its kind, in the order of R94. -/
def kindArms : List ((Byte → Byte → List Byte → Instr) × Kind) :=
  [(.kindPing, .ping), (.kindPingReply, .pingReply), (.kindAckOk, .ackOk), (.kindAckNok, .ackNok),
   (.kindSleep, .sleep), (.kindResetSoft, .resetSoft), (.kindResetHard, .resetHard), (.kindReadReg, .readReg),
   (.kindReadReply, .readReply), (.kindWriteReg, .writeReg), (.kindGetInfo, .getInfo),
   (.kindInfoReply, .infoReply), (.kindSync, .sync)]

/-- A list of events taken one after the other (R12). -/
def feed : List Event → State → Host.Outcome State Fault Refusal
  | [], s => .next s
  | e :: es, s =>
    match handle e s with
    | .next t => feed es t
    | .fault r => .fault r
    | .refused r => .refused r

/-! ### The invariant between events -/

/-- What the candidate buffer holds in each phase (R54, R143 to R146). -/
def State.candidateOk (s : State) : Prop :=
  match s.status.phase with
  | .idle => s.cbuf = []
  | .tx => s.cbuf = []
  | .awaitSoh => s.cbuf = []
  | .awaitHeader =>
    s.cbuf.head? = some SOH ∧ s.cbuf.length ≤ 3 ∧ (2 ≤ s.cbuf.length → MIN_LEN ≤ s.candLen)
  | .awaitPayload =>
    s.cbuf.head? = some SOH ∧ 4 ≤ s.cbuf.length ∧ s.cbuf.length + 2 ≤ s.candLen
  | .awaitChecksum =>
    s.cbuf.head? = some SOH ∧ 5 ≤ s.cbuf.length ∧ s.cbuf.length + 1 = s.candLen

/-- The invariant of the engine between events: the memory is canonical; BUSY and PHASE agree (R35); `TXQ` is non-empty
exactly in TX (R55); the lists keep their bounds (R52, R53, R55); the candidate has its phase's shape (R54); in a receive
phase everything received has been parsed (R148), the deadline is not over (R152, R153) and a reply is expected; no
command, no context (R57); a running command has no results yet (R43, R44, R158); an error leaves RESULT 0 and no NOK
(R37, R43); IRQ is the level of R58. -/
structure State.Inv (s : State) : Prop where
  memory : s.mem.wf = true
  busy_phase : s.status.busy = true ↔ s.status.phase ≠ .idle
  txq_phase : s.txq ≠ [] ↔ s.status.phase = .tx
  txq_bound : s.txq.length ≤ 255
  fifo_bound : s.fifo.length ≤ s.set.rxFifoDepth
  pb_bound : s.pb.length ≤ 254
  candidate : s.candidateOk
  receive : s.status.phase.receiving = true → s.pb = [] ∧ s.fifo = [] ∧ s.tmr ≠ 0 ∧ s.ctx.isSome = true
  idle_ctx : s.status.phase = .idle → s.ctx = none
  running : s.status.busy = true →
    s.status.done = false ∧ s.status.err = .ok ∧ s.status.nok = false ∧ s.result = 0 ∧ s.rxhdr = 0
  error : s.status.err ≠ .ok → s.result = 0 ∧ s.status.nok = false
  interrupt : s.irq = (s.status.done && s.ctrlIE)

end Sys2Proof.Machine
end

