-- ==== Sys2Proof/Certificates/Slice0/Obligations.lean ====
section
/-! DEFINITION. The statements for the provers, in the order of OBLIGATIONS.json: the encodings, the codec, what each
command does, what each received frame does, the host window, the link and time, Reset, the parser, and the rules of the
whole machine. -/

open Sys2Proof Sys2Proof.Machine

/-! ### Encodings (30_encoding.md) -/

/-- Decoding an encoded well-formed instruction gives it back: every command with every operand byte, every frame of
every named kind with every source, destination and message a LEN byte admits, for every numbering of the kinds that R8
allows and both checksums (R80, R83, R90, R94). -/
def Obligations.DecodeInvertsEncode : Prop :=
  ∀ (p : ParamSet) (i : Instr), p.kindCodes.distinct = true → i.wf = true → decode p (encode p i) = .ok i

/-- The words and frames that R88, R89 and R99 write out decode to the instructions they stand for. -/
def Obligations.ExampleWordsDecode : Prop :=
  decode Config.paramSet (.cmd 0x00000520) = .ok (.ping 0x05) ∧
  decode Config.paramSet (.cmd 0x00000530) = .ok (.read 0x05) ∧
  decode Config.paramSet (.cmd 0x00553410) = .ok (.exchange 0x34 0x55) ∧
  decode Config.paramSet (.cmd 0x00000533) = .ok (.writeTyped 0x05) ∧
  decode Config.paramSet (.cmd 0x00000025) = .ok .sync ∧
  decode Config.paramSet (.cmd 0x00000001) = .ok .checksum ∧
  decode Config.paramSet (.frame [0x01, 0x06, 0x00, 0x05, 0x00, 0x57]) = .ok (.kindPing 0x00 0x05 []) ∧
  decode Config.paramSet (.frame [0x01, 0x06, 0x05, 0x00, 0x02, 0xD8]) = .ok (.kindAckOk 0x05 0x00 []) ∧
  decode Config.paramSet (.frame [0x01, 0x09, 0x00, 0x05, 0x07, 0x00, 0x01, 0x10, 0xCC]) =
    .ok (.kindReadReg 0x00 0x05 [0x00, 0x01, 0x10])

/-- The opcode map of R83: the command is told from CMD[7:0] alone, whatever the other bits, with DST in CMD[15:8] and
KIND in CMD[23:16]; every other code is illegal. -/
def Obligations.OpcodeMap : Prop :=
  (∀ v : Word, v.extractLsb' 0 8 = 0x01 → decodeCmd v = .ok .checksum) ∧
  (∀ v : Word, v.extractLsb' 0 8 = 0x02 → decodeCmd v = .ok (.encode (v.extractLsb' 8 8) (v.extractLsb' 16 8))) ∧
  (∀ v : Word, v.extractLsb' 0 8 = 0x03 → decodeCmd v = .ok .decode) ∧
  (∀ v : Word, v.extractLsb' 0 8 = 0x04 → decodeCmd v = .ok .flush) ∧
  (∀ v : Word, v.extractLsb' 0 8 = 0x10 → decodeCmd v = .ok (.exchange (v.extractLsb' 8 8) (v.extractLsb' 16 8))) ∧
  (∀ v : Word, v.extractLsb' 0 8 = 0x11 → decodeCmd v = .ok (.send (v.extractLsb' 8 8) (v.extractLsb' 16 8))) ∧
  (∀ v : Word, v.extractLsb' 0 8 = 0x20 → decodeCmd v = .ok (.ping (v.extractLsb' 8 8))) ∧
  (∀ v : Word, v.extractLsb' 0 8 = 0x21 → decodeCmd v = .ok (.resetSoft (v.extractLsb' 8 8))) ∧
  (∀ v : Word, v.extractLsb' 0 8 = 0x22 → decodeCmd v = .ok (.resetHard (v.extractLsb' 8 8))) ∧
  (∀ v : Word, v.extractLsb' 0 8 = 0x23 → decodeCmd v = .ok (.sleep (v.extractLsb' 8 8))) ∧
  (∀ v : Word, v.extractLsb' 0 8 = 0x24 → decodeCmd v = .ok (.getInfo (v.extractLsb' 8 8))) ∧
  (∀ v : Word, v.extractLsb' 0 8 = 0x25 → decodeCmd v = .ok .sync) ∧
  (∀ v : Word, v.extractLsb' 0 8 = 0x26 → decodeCmd v = .ok .pingLatest) ∧
  (∀ v : Word, v.extractLsb' 0 8 = 0x30 → decodeCmd v = .ok (.read (v.extractLsb' 8 8))) ∧
  (∀ v : Word, v.extractLsb' 0 8 = 0x31 → decodeCmd v = .ok (.write (v.extractLsb' 8 8))) ∧
  (∀ v : Word, v.extractLsb' 0 8 = 0x32 → decodeCmd v = .ok (.readTyped (v.extractLsb' 8 8))) ∧
  (∀ v : Word, v.extractLsb' 0 8 = 0x33 → decodeCmd v = .ok (.writeTyped (v.extractLsb' 8 8))) ∧
  (∀ v : Word,
    v.extractLsb' 0 8 ∉ ([0x01, 0x02, 0x03, 0x04, 0x10, 0x11, 0x20, 0x21, 0x22, 0x23, 0x24, 0x25, 0x26, 0x30, 0x31,
      0x32, 0x33] : List Byte) →
    decodeCmd v = .error (.illegalCommand (v.extractLsb' 0 8)))

/-- R86: every operand is an unsigned field of CMD, ARG0 or ARG1, taken as it stands. R29 and R81: the fields of CFG, and the
frame of a request, whose FROM byte is CFG[7:0] (R90). R94: the codes of the kinds, the parameter's and its defaults. -/
def Obligations.OperandFields : Prop :=
  (∀ v : Word, cmdDst v = v.extractLsb' 8 8 ∧ cmdKind v = v.extractLsb' 16 8) ∧
  (∀ s : State,
    s.offset = s.arg0.toNat % 65536 ∧ s.n = s.arg0.toNat / 65536 % 256 ∧ s.regid = s.arg0.toNat / 16777216 ∧
    s.value = s.arg1) ∧
  (∀ s : State,
    s.masterId = s.cfg.extractLsb' 0 8 ∧ s.bcast = s.cfg.extractLsb' 8 8 ∧ s.expMajor = s.cfg.extractLsb' 16 8 ∧
    s.expMinor = s.cfg.extractLsb' 24 8) ∧
  (∀ (s : State) (dst kind : Byte) (m : List Byte),
    s.requestFrame dst kind m =
      [0x01, BitVec.ofNat 8 (6 + m.length), s.cfg.extractLsb' 0 8, dst, kind] ++ m ++
        [checksum s.set.chkAlg ([0x01, BitVec.ofNat 8 (6 + m.length), s.cfg.extractLsb' 0 8, dst, kind] ++ m)]) ∧
  (∀ s : State,
    Kind.all.map s.code =
      [s.set.kindCodes.ping, s.set.kindCodes.pingReply, s.set.kindCodes.ackOk, s.set.kindCodes.ackNok,
        s.set.kindCodes.sleep, s.set.kindCodes.resetSoft, s.set.kindCodes.resetHard, s.set.kindCodes.readReg,
        s.set.kindCodes.readReply, s.set.kindCodes.writeReg, s.set.kindCodes.getInfo, s.set.kindCodes.infoReply,
        s.set.kindCodes.sync]) ∧
  Kind.all = [.ping, .pingReply, .ackOk, .ackNok, .sleep, .resetSoft, .resetHard, .readReg, .readReply, .writeReg,
    .getInfo, .infoReply, .sync] ∧
  Kind.all.map State.reset.code =
    [0x00, 0x01, 0x02, 0x03, 0x04, 0x05, 0x06, 0x07, 0x08, 0x09, 0x0A, 0x0B, 0x0C]

/-! ### The codec (40_codec.md) -/

/-- R112: `sum2c` is the two's complement of the 8-bit sum, so that all bytes, checksum included, sum to 0 mod 256; and
the values that R111, R112 and R113 give for the two checksums. -/
def Obligations.Checksums : Prop :=
  (∀ bs : List Byte,
    (sum2c bs).toNat = (256 - (bs.map BitVec.toNat).sum % 256) % 256 ∧
    ((bs ++ [sum2c bs]).map BitVec.toNat).sum % 256 = 0) ∧
  crc8 [] = 0x00 ∧ crc8 [0x01] = 0x07 ∧ crc8 [0xFF] = 0xF3 ∧
  crc8 [0x31, 0x32, 0x33, 0x34, 0x35, 0x36, 0x37, 0x38, 0x39] = 0xF4 ∧
  crc8 [0x01, 0x07, 0x05, 0x00, 0x08, 0x03] = 0xEF ∧ crc8 [0x01, 0x07, 0x00, 0x05, 0x08, 0x03] = 0x61 ∧
  sum2c [] = 0x00 ∧ sum2c [0x31, 0x32, 0x33, 0x34, 0x35, 0x36, 0x37, 0x38, 0x39] = 0x23 ∧
  sum2c [0x01, 0x07, 0x05, 0x00, 0x08, 0x03] = 0xE8 ∧ sum2c [0x01, 0x07, 0x00, 0x05, 0x08, 0x03] = 0xE8

/-- R114 and R115: what `encode` builds, and its one failure. -/
def Obligations.EncodeFunction : Prop :=
  ∀ (alg : ChkAlg) (src dst kind : Byte) (m : List Byte),
    (m.length ≤ 248 →
      ∃ h f : List Byte,
        h = [0x01, BitVec.ofNat 8 (6 + m.length), src, dst, kind] ++ m ∧ f = h ++ [checksum alg h] ∧
        encodeFrame alg src dst kind m = .ok f ∧
        f = frameOf alg { src := src, dst := dst, kind := kind, m := m } ∧ f.length = 6 + m.length ∧ (f.getD 1 0).toNat = f.length) ∧
    (248 < m.length → encodeFrame alg src dst kind m = .error .payloadTooLarge)

/-- R116 and R117: the checks of `decode`, the first that fails giving the error. -/
def Obligations.DecodeCheckOrder : Prop :=
  ∀ (alg : ChkAlg) (b : List Byte),
    (b.length = 0 → decodeFrame alg b = .error .messageIncomplete) ∧
    (1 ≤ b.length → b.getD 0 0 ≠ 0x01 → decodeFrame alg b = .error .badSoh) ∧
    (b.length = 1 → b.getD 0 0 = 0x01 → decodeFrame alg b = .error .messageIncomplete) ∧
    (2 ≤ b.length → b.getD 0 0 = 0x01 → (b.getD 1 0).toNat < 6 → decodeFrame alg b = .error .badLen) ∧
    (2 ≤ b.length → b.getD 0 0 = 0x01 → 6 ≤ (b.getD 1 0).toNat → b.length < (b.getD 1 0).toNat →
      decodeFrame alg b = .error .messageIncomplete) ∧
    (b.getD 0 0 = 0x01 → 6 ≤ (b.getD 1 0).toNat → (b.getD 1 0).toNat < b.length →
      decodeFrame alg b = .error .badLen) ∧
    (b.getD 0 0 = 0x01 → 6 ≤ b.length → b.length = (b.getD 1 0).toNat →
      b.getD (b.length - 1) 0 ≠ checksum alg (b.take (b.length - 1)) →
      decodeFrame alg b = .error .checksumError) ∧
    (b.getD 0 0 = 0x01 → 6 ≤ b.length → b.length = (b.getD 1 0).toNat →
      b.getD (b.length - 1) 0 = checksum alg (b.take (b.length - 1)) →
      decodeFrame alg b =
        .ok { src := b.getD 2 0, dst := b.getD 3 0, kind := b.getD 4 0, m := (b.drop 5).take (b.length - 6) })

/-- `decode` accepts exactly the frames of R90: a byte list decodes to a message if and only if it is that message's
frame, the message being one a LEN byte admits (R93). -/
def Obligations.DecodeAcceptsExactlyFrames : Prop :=
  ∀ (alg : ChkAlg) (b : List Byte) (msg : Message),
    decodeFrame alg b = .ok msg ↔
      msg.m.length ≤ 249 ∧
      b = [0x01, BitVec.ofNat 8 (6 + msg.m.length), msg.src, msg.dst, msg.kind] ++ msg.m ++
        [checksum alg ([0x01, BitVec.ofNat 8 (6 + msg.m.length), msg.src, msg.dst, msg.kind] ++ msg.m)]

/-- R118: the round-trip law. -/
def Obligations.CodecRoundTrip : Prop :=
  ∀ (alg : ChkAlg) (src dst kind : Byte) (m : List Byte), m.length ≤ 248 →
    ∃ f, encodeFrame alg src dst kind m = .ok f ∧
      decodeFrame alg f = .ok { src := src, dst := dst, kind := kind, m := m }

/-- R119: the prefix law. -/
def Obligations.PrefixLaw : Prop :=
  ∀ (alg : ChkAlg) (src dst kind : Byte) (m f : List Byte) (k : Nat),
    encodeFrame alg src dst kind m = .ok f → k < f.length →
      decodeFrame alg (f.take k) = .error .messageIncomplete

/-- R120: the single-byte-change law, under both checksums. -/
def Obligations.SingleByteChangeLaw : Prop :=
  ∀ (alg : ChkAlg) (src dst kind : Byte) (m f : List Byte) (i : Nat) (b : Byte),
    encodeFrame alg src dst kind m = .ok f → i < f.length → b ≠ f.getD i 0 →
      (i = 0 → decodeFrame alg (f.set i b) = .error .badSoh) ∧
      (i = 1 → b.toNat < f.length → decodeFrame alg (f.set i b) = .error .badLen) ∧
      (i = 1 → f.length < b.toNat → decodeFrame alg (f.set i b) = .error .messageIncomplete) ∧
      (2 ≤ i → decodeFrame alg (f.set i b) = .error .checksumError)

/-! ### The local commands (40_codec.md, 41_transport.md, 42_device_ops.md) -/

/-- CHECKSUM (R121) ends without error, RESULT the checksum of TXBUF[0 .. N-1]; nothing else changes. -/
def Obligations.ChecksumCommand : Prop :=
  (∀ v : Word, v.extractLsb' 0 8 = 0x01 → decodeCmd v = .ok .checksum) ∧
  ∀ s : State, s.Fresh →
    exec .checksum s =
      .next (s.ended .ok false ((checksum s.set.chkAlg (s.readBytes 0x100 s.n)).setWidth 32))

/-- ENCODE (R122): with N at most 248 the frame stands in FRAMEBUF, RESULT is its length, and every other byte of memory
reads as before; with a larger N it ends with PAYLOAD_TOO_LARGE and nothing else. -/
def Obligations.EncodeCommand : Prop :=
  (∀ v : Word, v.extractLsb' 0 8 = 0x02 → decodeCmd v = .ok (.encode (v.extractLsb' 8 8) (v.extractLsb' 16 8))) ∧
  ∀ (s : State) (dst kind : Byte), s.Fresh →
    (s.n ≤ 248 →
      ∃ t, exec (.encode dst kind) s = .next t ∧
        t = State.ended { s with mem := t.mem } .ok false (BitVec.ofNat 32 (6 + s.n)) ∧
        t.readBytes 0x300 (6 + s.n) = s.requestFrame dst kind (s.readBytes 0x100 s.n) ∧
        ∀ a, a < 0x300 ∨ 0x300 + (6 + s.n) ≤ a → t.readByte a = s.readByte a) ∧
    (248 < s.n → exec (.encode dst kind) s = .next (s.ended .payloadTooLarge false 0))

/-- DECODE (R123) of a frame: RXHDR and RXBUF hold the message, RESULT is N, and every other byte of memory reads as
before; of anything else, the decode error and nothing else. -/
def Obligations.DecodeCommand : Prop :=
  (∀ v : Word, v.extractLsb' 0 8 = 0x03 → decodeCmd v = .ok .decode) ∧
  ∀ s : State, s.Fresh →
    (∀ msg, decodeFrame s.set.chkAlg (s.readBytes 0x300 s.n) = .ok msg →
      ∃ t, exec .decode s = .next t ∧
        t = State.ended { s with mem := t.mem, rxhdr := t.rxhdr } .ok false (BitVec.ofNat 32 s.n) ∧
        t.rxhdr.toNat = msg.src.toNat + 256 * msg.dst.toNat + 65536 * msg.kind.toNat + 16777216 * msg.m.length ∧
        t.readBytes 0x200 msg.m.length = msg.m ∧
        ∀ a, a < 0x200 ∨ 0x200 + msg.m.length ≤ a → t.readByte a = s.readByte a) ∧
    (∀ e, decodeFrame s.set.chkAlg (s.readBytes 0x300 s.n) = .error e →
      exec .decode s = .next (s.ended e false 0))

/-- FLUSH (R165): RESULT the number of received bytes not yet parsed, which are gone; OVR and all else unchanged. The
count is below 2^32, as a 32-bit RESULT needs (log 12). -/
def Obligations.FlushCommand : Prop :=
  (∀ v : Word, v.extractLsb' 0 8 = 0x04 → decodeCmd v = .ok .flush) ∧
  ∀ s : State, s.Fresh → s.pb.length + s.fifo.length < 4294967296 →
    exec .flush s =
      .next (State.ended { s with pb := [], fifo := [] } .ok false (BitVec.ofNat 32 (s.pb.length + s.fifo.length)))

/-- PING_LATEST (R184): RESULT 1 if the ping record is valid, of the version CFG expects, and from the leaf that was
pinged; else 0. -/
def Obligations.PingLatestCommand : Prop :=
  (∀ v : Word, v.extractLsb' 0 8 = 0x26 → decodeCmd v = .ok .pingLatest) ∧
  ∀ s : State, s.Fresh →
    exec .pingLatest s =
      .next (s.ended .ok false
        (if s.status.prValid = true ∧ s.pingrec.extractLsb' 0 8 = s.cfg.extractLsb' 16 8 ∧
            s.pingrec.extractLsb' 8 8 = s.cfg.extractLsb' 24 8 ∧
            s.pingrec.extractLsb' 16 8 = s.pingrec.extractLsb' 24 8
          then 1 else 0))

/-! ### The wire commands -/

/-- EXCHANGE and SEND (R163, R164): a frame to DST of kind KIND with TXBUF[0 .. N-1] is queued and the phase is TX, SEND
awaiting no reply; with N above 248, PAYLOAD_TOO_LARGE and nothing sent. -/
def Obligations.ExchangeAndSendCommands : Prop :=
  ∀ (s : State) (dst kind : Byte), s.Fresh →
    (s.n ≤ 248 →
      exec (.exchange dst kind) s =
        .next (s.sending (s.requestFrame dst kind (s.readBytes 0x100 s.n)) (some .any)) ∧
      exec (.send dst kind) s = .next (s.sending (s.requestFrame dst kind (s.readBytes 0x100 s.n)) none)) ∧
    (248 < s.n →
      exec (.exchange dst kind) s = .next (s.ended .payloadTooLarge false 0) ∧
      exec (.send dst kind) s = .next (s.ended .payloadTooLarge false 0))

/-- The device operations PING, RESET_SOFT, RESET_HARD, SLEEP, GET_INFO and SYNC (R182, R185 to R189): in every state, the
request that R180's table gives is queued, the phase is TX and the command's check is awaited, none for SYNC, which goes to
CFG.BCAST; nothing else changes. -/
def Obligations.DeviceCommands : Prop :=
  ∀ (s : State) (dst : Byte),
    exec (.ping dst) s = .next (s.sending (s.requestFrame dst (s.code .ping) []) (some (.ping dst))) ∧
    exec (.resetSoft dst) s = .next (s.sending (s.requestFrame dst (s.code .resetSoft) []) (some .ack)) ∧
    exec (.resetHard dst) s = .next (s.sending (s.requestFrame dst (s.code .resetHard) []) (some .ack)) ∧
    exec (.sleep dst) s =
      .next (s.sending
        (s.requestFrame dst (s.code .sleep)
          [s.arg1.extractLsb' 0 8, s.arg1.extractLsb' 8 8, s.arg1.extractLsb' 16 8, s.arg1.extractLsb' 24 8])
        (some .ack)) ∧
    exec (.getInfo dst) s = .next (s.sending (s.requestFrame dst (s.code .getInfo) []) (some .info)) ∧
    exec .sync s = .next (s.sending (s.requestFrame (s.cfg.extractLsb' 8 8) (s.code .sync) []) none)

/-- READ (R213): the pre-flight checks in their order, then the READ_REG request. -/
def Obligations.ReadCommand : Prop :=
  ∀ (s : State) (dst : Byte), s.Fresh →
    exec (.read dst) s =
      .next (
        if s.n = 0 then s.ended .badRequest false 0
        else if 248 < s.n then s.ended .payloadTooLarge false 0
        else if 65536 < s.offset + s.n then s.ended .badRequest false 0
        else
          s.sending
            (s.requestFrame dst (s.code .readReg)
              [s.arg0.extractLsb' 0 8, s.arg0.extractLsb' 8 8, s.arg0.extractLsb' 16 8])
            (some (.read s.n)))

/-- WRITE (R214, R215): the pre-flight checks in their order, the last of them that no byte of the range lies in a
read-only register; then the WRITE_REG request with the bytes of TXBUF. -/
def Obligations.WriteCommand : Prop :=
  ∀ (s : State) (dst : Byte), s.Fresh →
    (s.n = 0 → exec (.write dst) s = .next (s.ended .badRequest false 0)) ∧
    (246 < s.n → exec (.write dst) s = .next (s.ended .payloadTooLarge false 0)) ∧
    (1 ≤ s.n → s.n ≤ 246 → 65536 < s.offset + s.n → exec (.write dst) s = .next (s.ended .badRequest false 0)) ∧
    (1 ≤ s.n → s.n ≤ 246 → s.offset + s.n ≤ 65536 →
      (∃ d ∈ s.set.regmap, d.ro = true ∧ ∃ a, s.offset ≤ a ∧ a < s.offset + s.n ∧
        d.offset ≤ a ∧ a < d.offset + d.width) →
      exec (.write dst) s = .next (s.ended .writeErrorReadOnly false 0)) ∧
    (1 ≤ s.n → s.n ≤ 246 → s.offset + s.n ≤ 65536 →
      (∀ d ∈ s.set.regmap, d.ro = true → ∀ a, s.offset ≤ a → a < s.offset + s.n →
        ¬(d.offset ≤ a ∧ a < d.offset + d.width)) →
      exec (.write dst) s =
        .next (s.sending
          (s.requestFrame dst (s.code .writeReg)
            ([s.arg0.extractLsb' 0 8, s.arg0.extractLsb' 8 8] ++ s.readBytes 0x100 s.n))
          (some .ack)))

/-- READ_TYPED (R218): no such REGID is BAD_REQUEST; else the READ_REG request for the register's offset and width. -/
def Obligations.ReadTypedCommand : Prop :=
  ∀ (s : State) (dst : Byte), s.Fresh →
    (s.set.regmap.length ≤ s.regid → exec (.readTyped dst) s = .next (s.ended .badRequest false 0)) ∧
    (∀ d, s.set.regmap[s.regid]? = some d →
      exec (.readTyped dst) s =
        .next (s.sending
          (s.requestFrame dst (s.code .readReg)
            [BitVec.ofNat 8 d.offset, BitVec.ofNat 8 (d.offset / 256), BitVec.ofNat 8 d.width])
          (some (.typed d))))

/-- WRITE_TYPED (R219, R217): no such REGID; a read-only register; a value that does not fit; else the WRITE_REG request
with the register's bytes. -/
def Obligations.WriteTypedCommand : Prop :=
  ∀ (s : State) (dst : Byte), s.Fresh →
    (s.set.regmap.length ≤ s.regid → exec (.writeTyped dst) s = .next (s.ended .badRequest false 0)) ∧
    (∀ d, s.set.regmap[s.regid]? = some d → d.ro = true →
      exec (.writeTyped dst) s = .next (s.ended .writeErrorReadOnly false 0)) ∧
    (∀ d, s.set.regmap[s.regid]? = some d → d.ro = false → d.type ≠ .bytebuf → 2 ^ (8 * d.width) ≤ s.arg1.toNat →
      exec (.writeTyped dst) s = .next (s.ended .badRequest false 0)) ∧
    (∀ d, s.set.regmap[s.regid]? = some d → d.ro = false → d.type ≠ .bytebuf → s.arg1.toNat < 2 ^ (8 * d.width) →
      exec (.writeTyped dst) s =
        .next (s.sending
          (s.requestFrame dst (s.code .writeReg)
            ([BitVec.ofNat 8 d.offset, BitVec.ofNat 8 (d.offset / 256)] ++
              [s.arg1.extractLsb' 0 8, s.arg1.extractLsb' 8 8, s.arg1.extractLsb' 16 8,
                s.arg1.extractLsb' 24 8].take d.width))
          (some .ack))) ∧
    (∀ d, s.set.regmap[s.regid]? = some d → d.ro = false → d.type = .bytebuf → 246 < d.width →
      exec (.writeTyped dst) s = .next (s.ended .payloadTooLarge false 0)) ∧
    (∀ d, s.set.regmap[s.regid]? = some d → d.ro = false → d.type = .bytebuf → d.width ≤ 246 →
      exec (.writeTyped dst) s =
        .next (s.sending
          (s.requestFrame dst (s.code .writeReg)
            ([BitVec.ofNat 8 d.offset, BitVec.ofNat 8 (d.offset / 256)] ++ s.readBytes 0x100 d.width))
          (some .ack)))

/-! ### Received frames: the reply checks (42_device_ops.md R180) -/

/-- EXCHANGE's check (R163) accepts a frame of every kind, the kinds without a name included (R96): the command ends
without error, RESULT the message-byte count. -/
def Obligations.AnyReplyCompletesExchange : Prop :=
  ∀ (s : State) (src dst : Byte) (m : List Byte), s.Awaits .any → m.length ≤ 249 →
    (∀ p ∈ kindArms,
      exec (p.1 src dst m) s =
        .next ((s.recorded (s.messageOf p.2 src dst m)).ended .ok false (BitVec.ofNat 32 m.length))) ∧
    ∀ kind : Byte, (∀ k : Kind, s.code k ≠ kind) →
      runMessage { src := src, dst := dst, kind := kind, m := m } s =
        .next ((s.recorded { src := src, dst := dst, kind := kind, m := m }).ended .ok false (BitVec.ofNat 32 m.length))

/-- The ACK check (R181) on a frame of every named kind, and of a kind without a name (R96), which is unexpected. -/
def Obligations.AckCheck : Prop :=
  ∀ (s : State) (src dst : Byte) (m : List Byte), s.Awaits .ack → m.length ≤ 249 →
    (∀ p ∈ kindArms,
      exec (p.1 src dst m) s =
        .next (
          let r := s.recorded (s.messageOf p.2 src dst m)
          if p.2 = .ackOk ∧ m = [] then r.ended .ok false 0
          else if p.2 = .ackNok then r.ended .ok true 0
          else r.ended .unexpectedReply false 0)) ∧
    ∀ kind : Byte, (∀ k : Kind, s.code k ≠ kind) →
      runMessage { src := src, dst := dst, kind := kind, m := m } s =
        .next ((s.recorded { src := src, dst := dst, kind := kind, m := m }).ended .unexpectedReply false 0)

/-- PING's check (R182, R183) on a frame of every kind, named or not (R96): a PING_REPLY of two bytes writes PINGREC, sets
PR_VALID and gives the latency as RESULT. -/
def Obligations.PingCheck : Prop :=
  ∀ (s : State) (pinged src dst : Byte) (m : List Byte), s.Awaits (.ping pinged) → m.length ≤ 249 →
    (∀ major minor : Byte, m = [major, minor] →
      ∃ t, exec (.kindPingReply src dst m) s = .next t ∧
        t = State.ended
          { s.recorded (s.messageOf .pingReply src dst m) with
            pingrec := t.pingrec
            status := { s.status with prValid := true } } .ok false s.latency ∧
        t.pingrec.toNat = major.toNat + 256 * minor.toNat + 65536 * src.toNat + 16777216 * pinged.toNat) ∧
    (∀ p ∈ kindArms, ¬(p.2 = .pingReply ∧ m.length = 2) →
      exec (p.1 src dst m) s =
        .next (
          let r := s.recorded (s.messageOf p.2 src dst m)
          if p.2 = .ackNok then r.ended .ok true 0 else r.ended .unexpectedReply false 0)) ∧
    ∀ kind : Byte, (∀ k : Kind, s.code k ≠ kind) →
      runMessage { src := src, dst := dst, kind := kind, m := m } s =
        .next ((s.recorded { src := src, dst := dst, kind := kind, m := m }).ended .unexpectedReply false 0)

/-- GET_INFO's check (R188) on a frame of every kind, named or not (R96). -/
def Obligations.InfoCheck : Prop :=
  ∀ (s : State) (src dst : Byte) (m : List Byte), s.Awaits .info → m.length ≤ 249 →
    (∀ p ∈ kindArms,
      exec (p.1 src dst m) s =
        .next (
          let r := s.recorded (s.messageOf p.2 src dst m)
          if p.2 = .infoReply then r.ended .ok false (BitVec.ofNat 32 m.length)
          else if p.2 = .ackNok then r.ended .ok true 0
          else r.ended .unexpectedReply false 0)) ∧
    ∀ kind : Byte, (∀ k : Kind, s.code k ≠ kind) →
      runMessage { src := src, dst := dst, kind := kind, m := m } s =
        .next ((s.recorded { src := src, dst := dst, kind := kind, m := m }).ended .unexpectedReply false 0)

/-- READ's check (R213) on a frame of every kind, named or not (R96). -/
def Obligations.ReadCheck : Prop :=
  ∀ (s : State) (n : Nat) (src dst : Byte) (m : List Byte), s.Awaits (.read n) → m.length ≤ 249 →
    (∀ p ∈ kindArms,
      exec (p.1 src dst m) s =
        .next (
          let r := s.recorded (s.messageOf p.2 src dst m)
          if p.2 = .readReply ∧ m.length = n then r.ended .ok false (BitVec.ofNat 32 n)
          else if p.2 = .ackNok then r.ended .ok true 0
          else r.ended .unexpectedReply false 0)) ∧
    ∀ kind : Byte, (∀ k : Kind, s.code k ≠ kind) →
      runMessage { src := src, dst := dst, kind := kind, m := m } s =
        .next ((s.recorded { src := src, dst := dst, kind := kind, m := m }).ended .unexpectedReply false 0)

/-- READ_TYPED's check (R218) with the typed decode (R216) on a frame of every kind, named or not (R96), for a
descriptor of REGMAP. -/
def Obligations.TypedCheck : Prop :=
  ∀ (s : State) (d : Descriptor) (src dst : Byte) (m : List Byte), s.Awaits (.typed d) → d ∈ s.set.regmap →
    m.length ≤ 249 →
    (∀ p ∈ kindArms,
      exec (p.1 src dst m) s =
        .next (
          let r := s.recorded (s.messageOf p.2 src dst m)
          if p.2 = .readReply ∧ m.length = d.width then
            r.ended .ok false (BitVec.ofNat 32 (if d.type = .bytebuf then d.width else fromLE m))
          else if p.2 = .ackNok then r.ended .ok true 0
          else r.ended .unexpectedReply false 0)) ∧
    ∀ kind : Byte, (∀ k : Kind, s.code k ≠ kind) →
      runMessage { src := src, dst := dst, kind := kind, m := m } s =
        .next ((s.recorded { src := src, dst := dst, kind := kind, m := m }).ended .unexpectedReply false 0)

/-- R44 and R49: what recording a message writes: RXHDR's four fields, RXBUF[0 .. |M|-1], and no other byte of memory. -/
def Obligations.MessageRecord : Prop :=
  ∀ (s : State) (msg : Message), msg.m.length ≤ 249 →
    (s.recordMessage msg).rxhdr.toNat =
      msg.src.toNat + 256 * msg.dst.toNat + 65536 * msg.kind.toNat + 16777216 * msg.m.length ∧
    (s.recordMessage msg).readBytes 0x200 msg.m.length = msg.m ∧
    (∀ a, a < 0x200 ∨ 0x200 + msg.m.length ≤ a → (s.recordMessage msg).readByte a = s.readByte a) ∧
    s.recordMessage msg = { s with rxhdr := (s.recordMessage msg).rxhdr, mem := (s.recordMessage msg).mem }

/-- Outside the receive phase a frame's bytes are stored, in order, as far as the FIFO has room, and not parsed; OVR is
set if any is lost. The rule for each byte is R141; that a whole frame is one instruction is the model's choice
(log 6, log 7). -/
def Obligations.FrameOutsideReceivePhaseIsStored : Prop :=
  ∀ (s : State) (src dst : Byte) (m : List Byte), s.status.phase.receiving = false →
    ∀ p ∈ kindArms,
      exec (p.1 src dst m) s =
        .next
          { s with
            fifo := s.fifo ++ (frameOf s.set.chkAlg (s.messageOf p.2 src dst m)).take (s.set.rxFifoDepth - s.fifo.length)
            status := { s.status with
              ovr := s.status.ovr || decide (s.set.rxFifoDepth < s.fifo.length + (6 + m.length)) } }

/-! ### One step -/

/-- A step is the next event taken whole, with IRQ recomputed (R12, R58); with no event, nothing changes (R12). -/
def Obligations.StepTakesOneEvent : Prop :=
  (∀ s : State, s.inputs = [] → step s = .next s) ∧
  ∀ (s : State) (e : Event) (rest : List Event), s.inputs = e :: rest →
    step s = handle e { s with inputs := rest } ∧
    ∀ t, step s = .next t → t.irq = (t.status.done && t.ctrlIE)

/-- A step runs the decoded command: on a write of a command word to CMD while idle, the step is the command's meaning on
the state after acceptance (R158), which is fresh, and IRQ is recomputed. -/
def Obligations.StepRunsCommand : Prop :=
  ∀ (s : State) (v : Word) (rest : List Event) (i : Instr),
    s.inputs = .hostWrite 4 0x00C v :: rest → s.status.busy = false → decodeCmd v = .ok i →
      (State.accepted { s with inputs := rest } v).Fresh ∧
      ∃ t, exec i (State.accepted { s with inputs := rest } v) = .next t ∧
        step s = .next { t with irq := t.status.done && t.ctrlIE }

/-- A step runs the received frame: when the next byte completes a frame in AWAIT_CHECKSUM and the frame decodes to an
instruction, the step is that instruction's meaning with the candidate taken, and IRQ is recomputed (R141, R146, R157). -/
def Obligations.StepRunsReceivedFrame : Prop :=
  ∀ (s : State) (b : Byte) (rest : List Event) (i : Instr),
    s.inputs = .rxByte b :: rest → s.status.phase = .awaitChecksum → s.pb = [] → s.fifo = [] →
    decode s.set (.frame (s.cbuf ++ [b])) = .ok i →
      ∃ t, exec i { s with inputs := rest, cbuf := [] } = .next t ∧
        step s = .next { t with irq := t.status.done && t.ctrlIE }

/-- A received byte in the receive phase, in any of its four phases, is stored and the parser runs (R141, R148): with no
message delivered the event ends in the parser's state; a delivered message is handled as its frame's instruction, or, of a
kind without a name, by the same check (R96, O23 to O28), and IRQ is recomputed. -/
def Obligations.ReceivedByteRunsParser : Prop :=
  (∀ (s : State) (b : Byte), s.status.phase.receiving = true →
    (∀ t, (s.pushRx b).runParser = (t, none) →
      handle (.rxByte b) s = .next { t with irq := t.status.done && t.ctrlIE }) ∧
    (∀ t msg, (s.pushRx b).runParser = (t, some msg) →
      ∃ u, runMessage msg t = .next u ∧ handle (.rxByte b) s = .next { u with irq := u.status.done && u.ctrlIE })) ∧
  (∀ (s : State) (b : Byte),
    (s.fifo.length < s.set.rxFifoDepth → s.pushRx b = { s with fifo := s.fifo ++ [b] }) ∧
    (s.set.rxFifoDepth ≤ s.fifo.length → s.pushRx b = { s with status := { s.status with ovr := true } })) ∧
  (∀ (s : State) (src dst : Byte) (m : List Byte), ∀ p ∈ kindArms,
    runMessage (s.messageOf p.2 src dst m) s = exec (p.1 src dst m) s)

/-- R84: a write of an illegal OP while idle is accepted and ends at once with ILLEGAL_CMD. -/
def Obligations.IllegalCommand : Prop :=
  ∀ (s : State) (v : Word), s.status.busy = false →
    v.extractLsb' 0 8 ∉ ([0x01, 0x02, 0x03, 0x04, 0x10, 0x11, 0x20, 0x21, 0x22, 0x23, 0x24, 0x25, 0x26, 0x30, 0x31,
      0x32, 0x33] : List Byte) →
    handle (.hostWrite 4 0x00C v) s = .next ((s.accepted v).ended .illegalCmd false 0)

/-! ### The host window (20_memory.md, 10_state.md) -/

/-- What a host read of each register, each buffer word and each reserved address returns (R27, R61, R63, R64), and that it
changes nothing of the engine (R65). RXLEVEL's count is below 65536, as its 16 bits need (log 12). -/
def Obligations.HostReads : Prop :=
  ∀ s : State,
    let read (w : Word) : Host.Outcome State Fault Refusal :=
      .next { s with outputs := s.outputs ++ [.readData w], irq := s.status.done && s.ctrlIE }
    (∀ p ∈ ([(0x000, if s.ctrlIE then 1 else 0), (0x004, s.cfg), (0x008, s.timeout), (0x00C, s.cmd.setWidth 32),
        (0x010, s.arg0), (0x014, s.arg1), (0x018, s.status.word), (0x01C, s.result), (0x020, s.rxhdr),
        (0x024, s.latency), (0x028, s.pingrec)] : List (BitVec 12 × Word)),
      handle (.hostRead 4 p.1) s = read p.2) ∧
    (s.pb.length + s.fifo.length < 65536 →
      handle (.hostRead 4 0x02C) s = read (BitVec.ofNat 32 (s.pb.length + s.fifo.length))) ∧
    (∀ a : BitVec 12, a.toNat % 4 = 0 → 0x100 ≤ a.toNat → a.toNat < 0x400 →
      handle (.hostRead 4 a) s = read (BitVec.ofNat 32 (fromLE (s.readBytes a.toNat 4)))) ∧
    (∀ a : BitVec 12, a.toNat % 4 = 0 → 0x030 ≤ a.toNat → a.toNat < 0x100 ∨ 0x500 ≤ a.toNat →
      handle (.hostRead 4 a) s = read 0) ∧
    (∀ a : BitVec 12, a.toNat % 4 = 0 → handle (.hostRead 4 a) s = read (s.hostWord a))

/-- R51 and R100: DESC word `i` shows descriptor `i` field by field, and reads 0 where there is none. R101: the type codes. -/
def Obligations.DescriptorWindow : Prop :=
  ∀ (s : State) (i : Nat), i < 64 →
    (s.set.regmap.length ≤ i → s.hostWord (BitVec.ofNat 12 (0x400 + 4 * i)) = 0) ∧
    (∀ d, s.set.regmap[i]? = some d →
      let w := s.hostWord (BitVec.ofNat 12 (0x400 + 4 * i))
      (w.extractLsb' 0 16).toNat = d.offset ∧ (w.extractLsb' 16 8).toNat = d.width ∧
        (w.extractLsb' 24 3).toNat = d.type.code ∧ w.getLsbD 27 = d.nv ∧ w.getLsbD 28 = d.ro ∧
        w.extractLsb' 29 2 = 0 ∧ w.getLsbD 31 = true ∧
        (w.extractLsb' 24 3).toNat =
          match d.type with
          | .float32 => 0
          | .uint32 => 1
          | .uint8 => 2
          | .bitflags => 3
          | .bytebuf => 4)

/-- R34: the layout of the STATUS word, with the numbers of the eleven error codes (R242) and of the six phases (R26). -/
def Obligations.StatusLayout : Prop :=
  ∀ st : Status,
    st.word.getLsbD 0 = st.busy ∧ st.word.getLsbD 1 = st.done ∧ st.word.getLsbD 2 = st.nok ∧
    st.word.getLsbD 3 = st.chkseen ∧ st.word.getLsbD 4 = st.lenseen ∧ st.word.getLsbD 5 = st.ovr ∧
    st.word.getLsbD 6 = st.cmderr ∧ st.word.getLsbD 7 = st.werr ∧ st.word.extractLsb' 8 8 = st.err.code ∧
    (st.word.extractLsb' 16 3).toNat = st.phase.code ∧ st.word.getLsbD 19 = st.prValid ∧
    st.word.extractLsb' 20 12 = 0 ∧
    (st.word.extractLsb' 8 8 =
      match st.err with
      | .ok => 0x00
      | .timeout => 0x01
      | .checksumError => 0x02
      | .messageIncomplete => 0x03
      | .writeErrorReadOnly => 0x04
      | .payloadTooLarge => 0x05
      | .badSoh => 0x06
      | .badLen => 0x07
      | .unexpectedReply => 0x08
      | .badRequest => 0x09
      | .illegalCmd => 0x0A) ∧
    (st.word.extractLsb' 16 3).toNat =
      match st.phase with
      | .idle => 0
      | .tx => 1
      | .awaitSoh => 2
      | .awaitHeader => 3
      | .awaitPayload => 4
      | .awaitChecksum => 5

/-- Host writes to the registers: in every state CTRL.IE is stored, and each W1C bit of STATUS written as 1 is cleared and
nothing else of STATUS changes (R28, R34); while idle CFG, TIMEOUT, ARG0 and ARG1 store the word (R27, R66); IRQ follows
(R58, R251). -/
def Obligations.HostWriteRegisters : Prop :=
  ∀ (s : State) (v : Word),
    handle (.hostWrite 4 0x000 v) s =
      .next { s with ctrlIE := v.getLsbD 0, irq := s.status.done && v.getLsbD 0 } ∧
    handle (.hostWrite 4 0x018 v) s =
      .next
        { s with
          status := { s.status with
            done := if v.getLsbD 1 then false else s.status.done
            ovr := if v.getLsbD 5 then false else s.status.ovr
            cmderr := if v.getLsbD 6 then false else s.status.cmderr
            werr := if v.getLsbD 7 then false else s.status.werr }
          irq := (if v.getLsbD 1 then false else s.status.done) && s.ctrlIE } ∧
    (s.status.busy = false →
      handle (.hostWrite 4 0x004 v) s = .next { s with cfg := v, irq := s.status.done && s.ctrlIE } ∧
      handle (.hostWrite 4 0x008 v) s = .next { s with timeout := v, irq := s.status.done && s.ctrlIE } ∧
      handle (.hostWrite 4 0x010 v) s = .next { s with arg0 := v, irq := s.status.done && s.ctrlIE } ∧
      handle (.hostWrite 4 0x014 v) s = .next { s with arg1 := v, irq := s.status.done && s.ctrlIE })

/-- While idle, a host write to a word of TXBUF or FRAMEBUF stores its four bytes, the lowest first (R63); every other byte
of memory reads as before, nothing else changes, and a host read of the word then returns it. -/
def Obligations.HostWriteBuffersIdle : Prop :=
  ∀ (s : State) (a : BitVec 12) (v : Word), s.status.busy = false → a.toNat % 4 = 0 →
    (0x100 ≤ a.toNat ∧ a.toNat < 0x200) ∨ (0x300 ≤ a.toNat ∧ a.toNat < 0x400) →
    ∃ t, handle (.hostWrite 4 a v) s = .next t ∧
      t = { s with mem := t.mem, irq := s.status.done && s.ctrlIE } ∧
      t.readBytes a.toNat 4 = [v.extractLsb' 0 8, v.extractLsb' 8 8, v.extractLsb' 16 8, v.extractLsb' 24 8] ∧
      (∀ x, x < a.toNat ∨ a.toNat + 4 ≤ x → t.readByte x = s.readByte x) ∧
      t.hostWord a = v

/-- A host write to a read-only register, RXBUF, DESC or a reserved address is ignored and sets no flag, in every state
(R27, R64, R66). -/
def Obligations.HostWriteIgnored : Prop :=
  ∀ (s : State) (a : BitVec 12) (v : Word), a.toNat % 4 = 0 →
    (0x01C ≤ a.toNat ∧ a.toNat < 0x100) ∨ (0x200 ≤ a.toNat ∧ a.toNat < 0x300) ∨ 0x400 ≤ a.toNat →
    handle (.hostWrite 4 a v) s = .next { s with irq := s.status.done && s.ctrlIE }

/-- R159 and R160: while BUSY, a CMD write sets CMDERR, and a write to CFG, TIMEOUT, ARG0, ARG1, TXBUF or FRAMEBUF sets
WERR; nothing else changes. -/
def Obligations.HostWritesWhileBusy : Prop :=
  ∀ (s : State) (v : Word), s.status.busy = true →
    handle (.hostWrite 4 0x00C v) s =
      .next { s with status := { s.status with cmderr := true }, irq := s.status.done && s.ctrlIE } ∧
    ∀ a : BitVec 12, a.toNat % 4 = 0 →
      a ∈ ([0x004, 0x008, 0x010, 0x014] : List (BitVec 12)) ∨ (0x100 ≤ a.toNat ∧ a.toNat < 0x200) ∨
        (0x300 ≤ a.toNat ∧ a.toNat < 0x400) →
      handle (.hostWrite 4 a v) s =
        .next { s with status := { s.status with werr := true }, irq := s.status.done && s.ctrlIE }

/-! ### The link, time and Reset (41_transport.md, 70_reset_and_hazards.md) -/

/-- Outside the receive phase a received byte is stored, or lost with OVR set when the FIFO is full, and not parsed
(R141, R166). -/
def Obligations.ByteOutsideReceivePhase : Prop :=
  ∀ (s : State) (b : Byte), s.status.phase = .idle ∨ s.status.phase = .tx →
    (s.fifo.length < s.set.rxFifoDepth →
      handle (.rxByte b) s = .next { s with fifo := s.fifo ++ [b], irq := s.status.done && s.ctrlIE }) ∧
    (s.set.rxFifoDepth ≤ s.fifo.length →
      handle (.rxByte b) s =
        .next { s with status := { s.status with ovr := true }, irq := s.status.done && s.ctrlIE })

/-- What the parser does with one byte, by phase (R143 to R147): noise is dropped, an SOH starts a candidate, a LEN below 6
or a wrong checksum discards the candidate and pushes all but its SOH back, a right checksum delivers the message. -/
def Obligations.ParserByte : Prop :=
  ∀ (s : State) (b : Byte),
    (s.status.phase = .awaitSoh → b = 0x01 →
      s.parseByte b = ({ s with cbuf := [b], status := { s.status with phase := .awaitHeader } }, none)) ∧
    (s.status.phase = .awaitSoh → b ≠ 0x01 → s.parseByte b = (s, none)) ∧
    (s.status.phase = .awaitHeader → s.cbuf.length = 1 → b.toNat < 6 →
      s.parseByte b =
        ({ s with
            pb := (s.cbuf ++ [b]).drop 1 ++ s.pb
            cbuf := []
            status := { s.status with lenseen := true, phase := .awaitSoh } }, none)) ∧
    (s.status.phase = .awaitHeader → (s.cbuf.length = 1 ∧ 6 ≤ b.toNat) ∨ s.cbuf.length = 2 →
      s.parseByte b = ({ s with cbuf := s.cbuf ++ [b] }, none)) ∧
    (s.status.phase = .awaitHeader → s.cbuf.length = 3 →
      s.parseByte b =
        ({ s with cbuf := s.cbuf ++ [b], status := { s.status with phase := .awaitPayload } }, none)) ∧
    (s.status.phase = .awaitPayload → 2 ≤ s.cbuf.length → s.cbuf.length + 2 < (s.cbuf.getD 1 0).toNat →
      s.parseByte b = ({ s with cbuf := s.cbuf ++ [b] }, none)) ∧
    (s.status.phase = .awaitPayload → 2 ≤ s.cbuf.length → s.cbuf.length + 2 = (s.cbuf.getD 1 0).toNat →
      s.parseByte b =
        ({ s with cbuf := s.cbuf ++ [b], status := { s.status with phase := .awaitChecksum } }, none)) ∧
    (s.status.phase = .awaitChecksum → b = checksum s.set.chkAlg s.cbuf →
      s.parseByte b =
        ({ s with cbuf := [] },
          some { src := s.cbuf.getD 2 0, dst := s.cbuf.getD 3 0, kind := s.cbuf.getD 4 0, m := s.cbuf.drop 5 })) ∧
    (s.status.phase = .awaitChecksum → b ≠ checksum s.set.chkAlg s.cbuf →
      s.parseByte b =
        ({ s with
            pb := (s.cbuf ++ [b]).drop 1 ++ s.pb
            cbuf := []
            status := { s.status with chkseen := true, phase := .awaitSoh } }, none))

/-- `TxTake` (R152, R167): a byte before the last goes out; the last byte of a frame that awaits no reply ends the command;
the last byte of a request starts the receive phase with the timer at TIMEOUT.TO and runs the parser on the bytes already
received. If that delivers a message it is handled, whatever TIMEOUT.TO; if it delivers none and TIMEOUT.TO is 0 the command
ends at once, with TIMEOUT, or mid-frame with MESSAGE_INCOMPLETE and the candidate's bytes after its SOH pushed back; else
the receive phase goes on. With nothing received the first of these is a state written out. With TXQ empty the event is not
enabled (R140). -/
def Obligations.TransmitByte : Prop :=
  ∀ (s : State) (b : Byte) (rest : List Byte),
    (s.txq = [] → handle .txTake s = .refused .txTakeNotEnabled) ∧
    (s.txq = b :: rest → rest ≠ [] →
      handle .txTake s =
        .next { s with txq := rest, outputs := s.outputs ++ [.txByte b], irq := s.status.done && s.ctrlIE }) ∧
    (s.txq = [b] → s.ctx = none →
      handle .txTake s =
        .next (State.ended { s with outputs := s.outputs ++ [.txByte b] } s.status.err s.status.nok s.result)) ∧
    (∀ c, s.txq = [b] → s.ctx = some c → s.pb = [] → s.fifo = [] → s.timeout ≠ 0 →
      handle .txTake s =
        .next
          { s with
            txq := []
            tmr := s.timeout
            status := { s.status with phase := .awaitSoh }
            outputs := s.outputs ++ [.txByte b]
            irq := s.status.done && s.ctrlIE }) ∧
    (∀ c, s.txq = [b] → s.ctx = some c → s.pb = [] → s.fifo = [] → s.timeout = 0 → s.status.busy = true →
      handle .txTake s =
        .next
          (State.ended { s with tmr := 0, outputs := s.outputs ++ [.txByte b] } .timeout s.status.nok s.result)) ∧
    (∀ c t, s.txq = [b] → s.ctx = some c → s.status.busy = true →
      let r : State :=
        { s with
          txq := []
          tmr := s.timeout
          status := { s.status with phase := .awaitSoh }
          outputs := s.outputs ++ [.txByte b] }
      (r.runParser = (t, none) → s.timeout ≠ 0 →
        handle .txTake s = .next { t with irq := t.status.done && t.ctrlIE }) ∧
      (r.runParser = (t, none) → s.timeout = 0 → t.status.phase = .awaitSoh →
        handle .txTake s = .next (t.ended .timeout t.status.nok t.result)) ∧
      (r.runParser = (t, none) → s.timeout = 0 → t.status.phase ≠ .awaitSoh →
        handle .txTake s =
          .next (State.ended { t with pb := t.cbuf.drop 1 ++ t.pb } .messageIncomplete t.status.nok t.result)) ∧
      (∀ msg, r.runParser = (t, some msg) →
        ∃ u, runMessage msg t = .next u ∧ u.status.busy = false ∧
          handle .txTake s = .next { u with irq := u.status.done && u.ctrlIE }))

/-- `Tick` (R153, R154, R45): while BUSY, LATENCY counts, saturating; in the receive phase the timer counts down and, at 0,
the command ends with TIMEOUT, or mid-frame with MESSAGE_INCOMPLETE and the candidate's bytes after its SOH pushed back. -/
def Obligations.TickCounts : Prop :=
  ∀ s : State,
    (s.status.busy = false → s.status.phase = .idle →
      handle .tick s = .next { s with irq := s.status.done && s.ctrlIE }) ∧
    (s.status.busy = true →
      let l : Word := BitVec.ofNat 32 (min (s.latency.toNat + 1) 0xFFFFFFFF)
      (s.status.phase = .tx → handle .tick s = .next { s with latency := l, irq := s.status.done && s.ctrlIE }) ∧
      (s.status.phase.receiving = true → 2 ≤ s.tmr.toNat →
        handle .tick s =
          .next { s with latency := l, tmr := s.tmr - 1, irq := s.status.done && s.ctrlIE }) ∧
      (s.status.phase = .awaitSoh → s.tmr = 1 →
        handle .tick s =
          .next (State.ended { s with latency := l, tmr := 0 } .timeout s.status.nok s.result)) ∧
      (s.status.phase.receiving = true → s.status.phase ≠ .awaitSoh → s.tmr = 1 →
        handle .tick s =
          .next (State.ended { s with latency := l, tmr := 0, pb := s.cbuf.drop 1 ++ s.pb } .messageIncomplete
            s.status.nok s.result)))

/-- `Reset` (R280, R281) in every state: every register and list has its reset value; the buffers' bytes are drawn anew
(R282). The rest is the model's choice: the draw is marked by an empty memory and the next draw number (log 4), and the
events still to come (log 1), what the ports have shown (log 5) and the parameters (log 2) stay. With the spec's defaults
the host then reads the values of R281's table, CFG's version open (log 3). -/
def Obligations.ResetEvent : Prop :=
  (∀ s : State, ∃ t, handle .reset s = .next t ∧
    t.ctrlIE = false ∧
    t.cfg.toNat = s.set.masterIdRst.toNat + 256 * s.set.bcastAddrRst.toNat + 65536 * s.set.protoMajor.toNat +
      16777216 * s.set.protoMinor.toNat ∧
    t.timeout = s.set.timeoutRst ∧ t.cmd = 0 ∧ t.arg0 = 0 ∧ t.arg1 = 0 ∧ t.status.word = 0 ∧ t.result = 0 ∧
    t.rxhdr = 0 ∧ t.latency = 0 ∧ t.pingrec = 0 ∧ t.fifo = [] ∧ t.pb = [] ∧ t.cbuf = [] ∧ t.txq = [] ∧ t.tmr = 0 ∧
    t.ctx = none ∧ t.irq = false ∧ t.params = s.params ∧ t.mem.cells = [] ∧ t.draws = s.draws + 1 ∧
    t.inputs = s.inputs ∧ t.outputs = s.outputs) ∧
  (∀ a : BitVec 12, a.toNat % 4 = 0 → a.toNat < 0x030 → a ≠ 0x004 → a ≠ 0x008 → State.reset.hostWord a = 0) ∧
  State.reset.cfg.extractLsb' 0 8 = 0x00 ∧ State.reset.cfg.extractLsb' 8 8 = 0xFF ∧
  State.reset.cfg.extractLsb' 16 8 = Config.protoMajor ∧ State.reset.cfg.extractLsb' 24 8 = Config.protoMinor ∧
  State.reset.hostWord 0x008 = 20000

/-! ### The invariant of the engine -/

/-- The invariant holds after Reset, for every parameter set. -/
def Obligations.InvariantAtReset : Prop :=
  ∀ p : Params, (State.resetFor p).Inv

/-- Every step keeps the invariant, from every state that has it. -/
def Obligations.StepKeepsInvariant : Prop :=
  ∀ s t : State, s.Inv → step s = .next t → t.Inv

/-- R140 and R62: every enabled event has a step, in every state; a host access that is not 32 bits wide, or not at a word
address, is refused by name, and so is a `TxTake` while TXQ is empty. -/
def Obligations.EnabledEventsHaveAStep : Prop :=
  ∀ (s : State) (e : Event),
    (e.enabled s = true → ∃ t, handle e s = .next t) ∧
    (∀ (size : Nat) (a : BitVec 12) (v : Word), size ≠ 4 ∨ a.toNat % 4 ≠ 0 →
      handle (.hostWrite size a v) s = .refused (.hostAccess size a) ∧
      handle (.hostRead size a) s = .refused (.hostAccess size a)) ∧
    (s.txq = [] → handle .txTake s = .refused .txTakeNotEnabled)

/-! ### The parser (41_transport.md) -/

/-- R148 and R149: `run_parser()` takes the bytes of `S = PB ++ FIFO` one at a time (R142), does with each what its phase
says (R143 to R146), and goes on until a message is delivered or `S` is empty; the model's bound on the bytes it takes is
large enough. It stays in the receive phase and changes only `S`, the candidate, the phase, CHKSEEN and LENSEEN. -/
def Obligations.ParserStops : Prop :=
  (∀ s : State, ∀ fuel, s.parseFuel ≤ fuel → State.parse fuel s = s.runParser) ∧
  (∀ s : State, s.status.phase.receiving = true →
    (s.pb = [] → s.fifo = [] → s.runParser = (s, none)) ∧
    (∀ (b : Byte) (r : State),
      (s.pb = b :: r.pb ∧ r = { s with pb := r.pb }) ∨ (s.pb = [] ∧ s.fifo = b :: r.fifo ∧ r = { s with fifo := r.fifo }) →
        (∀ u, r.parseByte b = (u, none) → s.runParser = u.runParser) ∧
        (∀ u msg, r.parseByte b = (u, some msg) → s.runParser = (u, some msg))) ∧
    (s.runParser.2 = none → s.runParser.1.pb = [] ∧ s.runParser.1.fifo = []) ∧
    s.runParser.1.status.phase.receiving = true ∧
    s.runParser.1 = { s with
      pb := s.runParser.1.pb
      fifo := s.runParser.1.fifo
      cbuf := s.runParser.1.cbuf
      status := { s.status with
        phase := s.runParser.1.status.phase
        chkseen := s.runParser.1.status.chkseen
        lenseen := s.runParser.1.status.lenseen } })

/-- R146 and R147: whatever the parser delivers is the message of a whole valid frame that stood contiguous in the
candidate and the stream, and the bytes after that frame are left. -/
def Obligations.ParserDeliversOnlyFrames : Prop :=
  ∀ (s t : State) (msg : Message),
    s.candidateOk → s.status.phase.receiving = true → s.runParser = (t, some msg) →
      ∃ before f : List Byte,
        s.cbuf ++ s.pb ++ s.fifo = before ++ f ++ (t.pb ++ t.fifo) ∧ decodeFrame s.set.chkAlg f = .ok msg ∧
        t.cbuf = []

/-- R150, the resync invariant: with a well-formed frame whole in the stream, the parser delivers that frame, or one that
starts earlier; or it ends inside a candidate that starts earlier, and then the deadline leaves every byte of the frame in
the stream for the next read attempt. -/
def Obligations.ResyncInvariant : Prop :=
  ∀ (s t : State) (r : Option Message) (before f after : List Byte) (msg : Message),
    s.status.phase = .awaitSoh → s.cbuf = [] → s.pb ++ s.fifo = before ++ f ++ after →
    decodeFrame s.set.chkAlg f = .ok msg → s.runParser = (t, r) →
      (∀ got, r = some got →
        (got = msg ∧ t.pb ++ t.fifo = after) ∨
        ∃ b g : List Byte, b.length < before.length ∧ s.pb ++ s.fifo = b ++ g ++ (t.pb ++ t.fifo) ∧
          decodeFrame s.set.chkAlg g = .ok got) ∧
      (r = none →
        ∃ n, n < before.length ∧ t.cbuf = before.drop n ++ f ++ after ∧ t.pb = [] ∧ t.fifo = [] ∧
          t.expire.pb ++ t.expire.fifo = before.drop (n + 1) ++ f ++ after)

/-! ### The whole machine -/

/-- R154 and R296: under the invariant, a command that expects a reply has ended within TIMEOUT.TO ticks of the event that
takes its last request byte, whatever else happens on the host port and the link. -/
def Obligations.DeadlineEndsCommand : Prop :=
  ∀ (s : State) (b : Byte) (c : ReplyCheck) (es : List Event),
    s.Inv → s.txq = [b] → s.ctx = some c →
    (∀ e ∈ es, e ≠ .reset ∧ e ≠ .txTake ∧ e.enabled s = true) → s.timeout.toNat ≤ es.count .tick →
      ∃ (done : List Event) (t : State), done <+: es ∧ feed (.txTake :: done) s = .next t ∧
        t.status.busy = false ∧ t.status.done = true

/-- R161, R40 and R57: while a command runs, no host access ends it, moves its phase or changes its operands: a host access
changes only CTRL.IE, the sticky flags, IRQ and what the host port shows. -/
def Obligations.NoCancellation : Prop :=
  ∀ (s t : State) (e : Event), s.status.busy = true →
    (∃ size a v, e = .hostWrite size a v) ∨ (∃ size a, e = .hostRead size a) → handle e s = .next t →
      t = { s with
        ctrlIE := t.ctrlIE
        status := { s.status with
          done := t.status.done, ovr := t.status.ovr, cmderr := t.status.cmderr, werr := t.status.werr }
        irq := t.irq
        outputs := t.outputs } ∧
      (s.status.done = false → t.status.done = false)

/-- Only the host's writes and Reset change the registers that hold operands and settings: no byte of the link, no tick and
no command's own rule does (R22, R24, R31 to R33). Nothing changes the parameters (R22). -/
def Obligations.OperandsAreTheHosts : Prop :=
  (∀ (s t : State) (e : Event), handle e s = .next t → t.params = s.params) ∧
  (∀ (s t : State) (e : Event), (∀ size a v, e ≠ .hostWrite size a v) → e ≠ .reset → handle e s = .next t →
    t.ctrlIE = s.ctrlIE ∧ t.cfg = s.cfg ∧ t.timeout = s.timeout ∧ t.cmd = s.cmd ∧ t.arg0 = s.arg0 ∧
    t.arg1 = s.arg1 ∧ t.draws = s.draws) ∧
  (∀ (s t : State) (i : Instr), exec i s = .next t →
    t.ctrlIE = s.ctrlIE ∧ t.cfg = s.cfg ∧ t.timeout = s.timeout ∧ t.cmd = s.cmd ∧ t.arg0 = s.arg0 ∧
    t.arg1 = s.arg1 ∧ t.draws = s.draws ∧ t.latency = s.latency ∧ t.tmr = s.tmr)

/-- R48 to R50: the engine never writes TXBUF, and of its instructions only ENCODE writes FRAMEBUF; only a delivered
message (DECODE, or a received frame) writes RXBUF. -/
def Obligations.BufferOwnership : Prop :=
  ∀ (s t : State) (i : Instr), exec i s = .next t →
    (∀ a, a < 0x200 ∨ 0x400 ≤ a → t.readByte a = s.readByte a) ∧
    ((∀ dst kind, i ≠ .encode dst kind) → ∀ a, 0x300 ≤ a → a < 0x400 → t.readByte a = s.readByte a) ∧
    (i ≠ .decode → (∀ k src dst m, i ≠ instrOfKind k src dst m) →
      ∀ a, 0x200 ≤ a → a < 0x300 → t.readByte a = s.readByte a)

/-- R42, R46 and R183: PINGREC changes, and PR_VALID rises, only in an event in which a PING's check accepts a reply, or at
Reset; and only the PING command makes a command wait for that check. -/
def Obligations.OnlyPingWritesTheRecord : Prop :=
  (∀ (s t : State) (e : Event), handle e s = .next t → e ≠ .reset →
    (t.pingrec ≠ s.pingrec ∨ (s.status.prValid = false ∧ t.status.prValid = true)) →
      (∃ d, s.ctx = some (.ping d)) ∧ t.status.prValid = true ∧ t.status.err = s.status.err ∧
        t.result = t.latency) ∧
  (∀ (s t : State) (i : Instr) (d : Byte), exec i s = .next t → t.ctx = some (.ping d) →
    s.ctx = some (.ping d) ∨ i = .ping d)

/-- R36: an accepted command clears DONE, and has set it again if it ended within its own CMD write; DONE falls only by an
accepted command, a host write of 1 to it, or Reset; and a running command that ends other than by Reset sets it. -/
def Obligations.DoneFlag : Prop :=
  (∀ (s : State) (v : Word), (s.accept v).status.done = false) ∧
  (∀ (s t : State) (v : Word), s.status.busy = false → handle (.hostWrite 4 0x00C v) s = .next t →
    (t.status.busy = false → t.status.done = true) ∧ (t.status.busy = true → t.status.done = false)) ∧
  (∀ (s t : State) (e : Event), handle e s = .next t → s.status.done = true → t.status.done = false →
    e = .reset ∨ (∃ v : Word, e = .hostWrite 4 0x018 v ∧ v.getLsbD 1 = true) ∨
      (s.status.busy = false ∧ ∃ v : Word, e = .hostWrite 4 0x00C v)) ∧
  (∀ (s t : State) (e : Event), handle e s = .next t → e ≠ .reset → s.status.busy = true →
    t.status.busy = false → t.status.done = true)

/-- R39 and R40: OVR, CMDERR and WERR are sticky: each falls only by a host write of 1 to it, or Reset; CMDERR and WERR
rise only by a host write while BUSY. -/
def Obligations.StickyFlags : Prop :=
  ∀ (s t : State) (e : Event), handle e s = .next t → e ≠ .reset →
    (s.status.ovr = true → t.status.ovr = false → ∃ v : Word, e = .hostWrite 4 0x018 v ∧ v.getLsbD 5 = true) ∧
    (s.status.cmderr = true → t.status.cmderr = false →
      ∃ v : Word, e = .hostWrite 4 0x018 v ∧ v.getLsbD 6 = true) ∧
    (s.status.werr = true → t.status.werr = false →
      ∃ v : Word, e = .hostWrite 4 0x018 v ∧ v.getLsbD 7 = true) ∧
    (s.status.cmderr = false → t.status.cmderr = true →
      s.status.busy = true ∧ ∃ v : Word, e = .hostWrite 4 0x00C v) ∧
    (s.status.werr = false → t.status.werr = true →
      s.status.busy = true ∧ ∃ (a : BitVec 12) (v : Word), e = .hostWrite 4 a v)
end

