-- ==== Sys2Proof/Laws/State.lean ====
section
/-! SUPPORT. One lemma per field for each update of State, so that no later proof unfolds a record update. -/

namespace Sys2Proof.Machine

variable (s : State)

@[simp] theorem State.finish_params : s.finish.params = s.params := rfl
@[simp] theorem State.finish_ctrlIE : s.finish.ctrlIE = s.ctrlIE := rfl
@[simp] theorem State.finish_cfg : s.finish.cfg = s.cfg := rfl
@[simp] theorem State.finish_timeout : s.finish.timeout = s.timeout := rfl
@[simp] theorem State.finish_cmd : s.finish.cmd = s.cmd := rfl
@[simp] theorem State.finish_arg0 : s.finish.arg0 = s.arg0 := rfl
@[simp] theorem State.finish_arg1 : s.finish.arg1 = s.arg1 := rfl
@[simp] theorem State.finish_status : s.finish.status = { s.status with phase := .idle, busy := false, done := true } := rfl
@[simp] theorem State.finish_result : s.finish.result = s.result := rfl
@[simp] theorem State.finish_rxhdr : s.finish.rxhdr = s.rxhdr := rfl
@[simp] theorem State.finish_latency : s.finish.latency = s.latency := rfl
@[simp] theorem State.finish_pingrec : s.finish.pingrec = s.pingrec := rfl
@[simp] theorem State.finish_mem : s.finish.mem = s.mem := rfl
@[simp] theorem State.finish_draws : s.finish.draws = s.draws := rfl
@[simp] theorem State.finish_fifo : s.finish.fifo = s.fifo := rfl
@[simp] theorem State.finish_pb : s.finish.pb = s.pb := rfl
@[simp] theorem State.finish_cbuf : s.finish.cbuf = [] := rfl
@[simp] theorem State.finish_txq : s.finish.txq = [] := rfl
@[simp] theorem State.finish_tmr : s.finish.tmr = s.tmr := rfl
@[simp] theorem State.finish_ctx : s.finish.ctx = none := rfl
@[simp] theorem State.finish_irq : s.finish.irq = s.ctrlIE := rfl
@[simp] theorem State.finish_inputs : s.finish.inputs = s.inputs := rfl
@[simp] theorem State.finish_outputs : s.finish.outputs = s.outputs := rfl

@[simp] theorem State.complete_params : s.complete.params = s.params := rfl
@[simp] theorem State.complete_ctrlIE : s.complete.ctrlIE = s.ctrlIE := rfl
@[simp] theorem State.complete_cfg : s.complete.cfg = s.cfg := rfl
@[simp] theorem State.complete_timeout : s.complete.timeout = s.timeout := rfl
@[simp] theorem State.complete_cmd : s.complete.cmd = s.cmd := rfl
@[simp] theorem State.complete_arg0 : s.complete.arg0 = s.arg0 := rfl
@[simp] theorem State.complete_arg1 : s.complete.arg1 = s.arg1 := rfl
@[simp] theorem State.complete_status : s.complete.status = { s.status with phase := .idle, busy := false, done := true } := rfl
@[simp] theorem State.complete_result : s.complete.result = s.result := rfl
@[simp] theorem State.complete_rxhdr : s.complete.rxhdr = s.rxhdr := rfl
@[simp] theorem State.complete_latency : s.complete.latency = s.latency := rfl
@[simp] theorem State.complete_pingrec : s.complete.pingrec = s.pingrec := rfl
@[simp] theorem State.complete_mem : s.complete.mem = s.mem := rfl
@[simp] theorem State.complete_draws : s.complete.draws = s.draws := rfl
@[simp] theorem State.complete_fifo : s.complete.fifo = s.fifo := rfl
@[simp] theorem State.complete_pb : s.complete.pb = s.pb := rfl
@[simp] theorem State.complete_cbuf : s.complete.cbuf = [] := rfl
@[simp] theorem State.complete_txq : s.complete.txq = [] := rfl
@[simp] theorem State.complete_tmr : s.complete.tmr = s.tmr := rfl
@[simp] theorem State.complete_ctx : s.complete.ctx = none := rfl
@[simp] theorem State.complete_irq : s.complete.irq = s.ctrlIE := rfl
@[simp] theorem State.complete_inputs : s.complete.inputs = s.inputs := rfl
@[simp] theorem State.complete_outputs : s.complete.outputs = s.outputs := rfl

@[simp] theorem State.raise_params (e : ErrCode) : (s.raise e).params = s.params := rfl
@[simp] theorem State.raise_ctrlIE (e : ErrCode) : (s.raise e).ctrlIE = s.ctrlIE := rfl
@[simp] theorem State.raise_cfg (e : ErrCode) : (s.raise e).cfg = s.cfg := rfl
@[simp] theorem State.raise_timeout (e : ErrCode) : (s.raise e).timeout = s.timeout := rfl
@[simp] theorem State.raise_cmd (e : ErrCode) : (s.raise e).cmd = s.cmd := rfl
@[simp] theorem State.raise_arg0 (e : ErrCode) : (s.raise e).arg0 = s.arg0 := rfl
@[simp] theorem State.raise_arg1 (e : ErrCode) : (s.raise e).arg1 = s.arg1 := rfl
@[simp] theorem State.raise_status (e : ErrCode) : (s.raise e).status = { s.status with err := e, phase := .idle, busy := false, done := true } := rfl
@[simp] theorem State.raise_result (e : ErrCode) : (s.raise e).result = s.result := rfl
@[simp] theorem State.raise_rxhdr (e : ErrCode) : (s.raise e).rxhdr = s.rxhdr := rfl
@[simp] theorem State.raise_latency (e : ErrCode) : (s.raise e).latency = s.latency := rfl
@[simp] theorem State.raise_pingrec (e : ErrCode) : (s.raise e).pingrec = s.pingrec := rfl
@[simp] theorem State.raise_mem (e : ErrCode) : (s.raise e).mem = s.mem := rfl
@[simp] theorem State.raise_draws (e : ErrCode) : (s.raise e).draws = s.draws := rfl
@[simp] theorem State.raise_fifo (e : ErrCode) : (s.raise e).fifo = s.fifo := rfl
@[simp] theorem State.raise_pb (e : ErrCode) : (s.raise e).pb = s.pb := rfl
@[simp] theorem State.raise_cbuf (e : ErrCode) : (s.raise e).cbuf = [] := rfl
@[simp] theorem State.raise_txq (e : ErrCode) : (s.raise e).txq = [] := rfl
@[simp] theorem State.raise_tmr (e : ErrCode) : (s.raise e).tmr = s.tmr := rfl
@[simp] theorem State.raise_ctx (e : ErrCode) : (s.raise e).ctx = none := rfl
@[simp] theorem State.raise_irq (e : ErrCode) : (s.raise e).irq = s.ctrlIE := rfl
@[simp] theorem State.raise_inputs (e : ErrCode) : (s.raise e).inputs = s.inputs := rfl
@[simp] theorem State.raise_outputs (e : ErrCode) : (s.raise e).outputs = s.outputs := rfl

@[simp] theorem State.accept_params (v : Word) : (s.accept v).params = s.params := rfl
@[simp] theorem State.accept_ctrlIE (v : Word) : (s.accept v).ctrlIE = s.ctrlIE := rfl
@[simp] theorem State.accept_cfg (v : Word) : (s.accept v).cfg = s.cfg := rfl
@[simp] theorem State.accept_timeout (v : Word) : (s.accept v).timeout = s.timeout := rfl
@[simp] theorem State.accept_cmd (v : Word) : (s.accept v).cmd = v.setWidth 24 := rfl
@[simp] theorem State.accept_arg0 (v : Word) : (s.accept v).arg0 = s.arg0 := rfl
@[simp] theorem State.accept_arg1 (v : Word) : (s.accept v).arg1 = s.arg1 := rfl
@[simp] theorem State.accept_status (v : Word) : (s.accept v).status = { s.status with busy := true, done := false, err := .ok, nok := false, chkseen := false, lenseen := false, prValid := s.status.prValid && !(cmdOp v == 0x20) } := rfl
@[simp] theorem State.accept_result (v : Word) : (s.accept v).result = 0 := rfl
@[simp] theorem State.accept_rxhdr (v : Word) : (s.accept v).rxhdr = 0 := rfl
@[simp] theorem State.accept_latency (v : Word) : (s.accept v).latency = 0 := rfl
@[simp] theorem State.accept_pingrec (v : Word) : (s.accept v).pingrec = s.pingrec := rfl
@[simp] theorem State.accept_mem (v : Word) : (s.accept v).mem = s.mem := rfl
@[simp] theorem State.accept_draws (v : Word) : (s.accept v).draws = s.draws := rfl
@[simp] theorem State.accept_fifo (v : Word) : (s.accept v).fifo = s.fifo := rfl
@[simp] theorem State.accept_pb (v : Word) : (s.accept v).pb = s.pb := rfl
@[simp] theorem State.accept_cbuf (v : Word) : (s.accept v).cbuf = s.cbuf := rfl
@[simp] theorem State.accept_txq (v : Word) : (s.accept v).txq = s.txq := rfl
@[simp] theorem State.accept_tmr (v : Word) : (s.accept v).tmr = s.tmr := rfl
@[simp] theorem State.accept_ctx (v : Word) : (s.accept v).ctx = s.ctx := rfl
@[simp] theorem State.accept_irq (v : Word) : (s.accept v).irq = s.irq := rfl
@[simp] theorem State.accept_inputs (v : Word) : (s.accept v).inputs = s.inputs := rfl
@[simp] theorem State.accept_outputs (v : Word) : (s.accept v).outputs = s.outputs := rfl

@[simp] theorem State.emit_params (f : List Byte) : (s.emit f).params = s.params := rfl
@[simp] theorem State.emit_ctrlIE (f : List Byte) : (s.emit f).ctrlIE = s.ctrlIE := rfl
@[simp] theorem State.emit_cfg (f : List Byte) : (s.emit f).cfg = s.cfg := rfl
@[simp] theorem State.emit_timeout (f : List Byte) : (s.emit f).timeout = s.timeout := rfl
@[simp] theorem State.emit_cmd (f : List Byte) : (s.emit f).cmd = s.cmd := rfl
@[simp] theorem State.emit_arg0 (f : List Byte) : (s.emit f).arg0 = s.arg0 := rfl
@[simp] theorem State.emit_arg1 (f : List Byte) : (s.emit f).arg1 = s.arg1 := rfl
@[simp] theorem State.emit_status (f : List Byte) : (s.emit f).status = { s.status with phase := .tx } := rfl
@[simp] theorem State.emit_result (f : List Byte) : (s.emit f).result = s.result := rfl
@[simp] theorem State.emit_rxhdr (f : List Byte) : (s.emit f).rxhdr = s.rxhdr := rfl
@[simp] theorem State.emit_latency (f : List Byte) : (s.emit f).latency = s.latency := rfl
@[simp] theorem State.emit_pingrec (f : List Byte) : (s.emit f).pingrec = s.pingrec := rfl
@[simp] theorem State.emit_mem (f : List Byte) : (s.emit f).mem = s.mem := rfl
@[simp] theorem State.emit_draws (f : List Byte) : (s.emit f).draws = s.draws := rfl
@[simp] theorem State.emit_fifo (f : List Byte) : (s.emit f).fifo = s.fifo := rfl
@[simp] theorem State.emit_pb (f : List Byte) : (s.emit f).pb = s.pb := rfl
@[simp] theorem State.emit_cbuf (f : List Byte) : (s.emit f).cbuf = s.cbuf := rfl
@[simp] theorem State.emit_txq (f : List Byte) : (s.emit f).txq = f := rfl
@[simp] theorem State.emit_tmr (f : List Byte) : (s.emit f).tmr = s.tmr := rfl
@[simp] theorem State.emit_ctx (f : List Byte) : (s.emit f).ctx = s.ctx := rfl
@[simp] theorem State.emit_irq (f : List Byte) : (s.emit f).irq = s.irq := rfl
@[simp] theorem State.emit_inputs (f : List Byte) : (s.emit f).inputs = s.inputs := rfl
@[simp] theorem State.emit_outputs (f : List Byte) : (s.emit f).outputs = s.outputs := rfl

@[simp] theorem State.store_params (buf : Buffer) (bs : List Byte) : (s.store buf bs).params = s.params := rfl
@[simp] theorem State.store_ctrlIE (buf : Buffer) (bs : List Byte) : (s.store buf bs).ctrlIE = s.ctrlIE := rfl
@[simp] theorem State.store_cfg (buf : Buffer) (bs : List Byte) : (s.store buf bs).cfg = s.cfg := rfl
@[simp] theorem State.store_timeout (buf : Buffer) (bs : List Byte) : (s.store buf bs).timeout = s.timeout := rfl
@[simp] theorem State.store_cmd (buf : Buffer) (bs : List Byte) : (s.store buf bs).cmd = s.cmd := rfl
@[simp] theorem State.store_arg0 (buf : Buffer) (bs : List Byte) : (s.store buf bs).arg0 = s.arg0 := rfl
@[simp] theorem State.store_arg1 (buf : Buffer) (bs : List Byte) : (s.store buf bs).arg1 = s.arg1 := rfl
@[simp] theorem State.store_status (buf : Buffer) (bs : List Byte) : (s.store buf bs).status = s.status := rfl
@[simp] theorem State.store_result (buf : Buffer) (bs : List Byte) : (s.store buf bs).result = s.result := rfl
@[simp] theorem State.store_rxhdr (buf : Buffer) (bs : List Byte) : (s.store buf bs).rxhdr = s.rxhdr := rfl
@[simp] theorem State.store_latency (buf : Buffer) (bs : List Byte) : (s.store buf bs).latency = s.latency := rfl
@[simp] theorem State.store_pingrec (buf : Buffer) (bs : List Byte) : (s.store buf bs).pingrec = s.pingrec := rfl
@[simp] theorem State.store_mem (buf : Buffer) (bs : List Byte) : (s.store buf bs).mem = s.mem.writeBytes buf.base (bs.take BUF_SIZE) := rfl
@[simp] theorem State.store_draws (buf : Buffer) (bs : List Byte) : (s.store buf bs).draws = s.draws := rfl
@[simp] theorem State.store_fifo (buf : Buffer) (bs : List Byte) : (s.store buf bs).fifo = s.fifo := rfl
@[simp] theorem State.store_pb (buf : Buffer) (bs : List Byte) : (s.store buf bs).pb = s.pb := rfl
@[simp] theorem State.store_cbuf (buf : Buffer) (bs : List Byte) : (s.store buf bs).cbuf = s.cbuf := rfl
@[simp] theorem State.store_txq (buf : Buffer) (bs : List Byte) : (s.store buf bs).txq = s.txq := rfl
@[simp] theorem State.store_tmr (buf : Buffer) (bs : List Byte) : (s.store buf bs).tmr = s.tmr := rfl
@[simp] theorem State.store_ctx (buf : Buffer) (bs : List Byte) : (s.store buf bs).ctx = s.ctx := rfl
@[simp] theorem State.store_irq (buf : Buffer) (bs : List Byte) : (s.store buf bs).irq = s.irq := rfl
@[simp] theorem State.store_inputs (buf : Buffer) (bs : List Byte) : (s.store buf bs).inputs = s.inputs := rfl
@[simp] theorem State.store_outputs (buf : Buffer) (bs : List Byte) : (s.store buf bs).outputs = s.outputs := rfl

@[simp] theorem State.recordMessage_params (msg : Message) : (s.recordMessage msg).params = s.params := rfl
@[simp] theorem State.recordMessage_ctrlIE (msg : Message) : (s.recordMessage msg).ctrlIE = s.ctrlIE := rfl
@[simp] theorem State.recordMessage_cfg (msg : Message) : (s.recordMessage msg).cfg = s.cfg := rfl
@[simp] theorem State.recordMessage_timeout (msg : Message) : (s.recordMessage msg).timeout = s.timeout := rfl
@[simp] theorem State.recordMessage_cmd (msg : Message) : (s.recordMessage msg).cmd = s.cmd := rfl
@[simp] theorem State.recordMessage_arg0 (msg : Message) : (s.recordMessage msg).arg0 = s.arg0 := rfl
@[simp] theorem State.recordMessage_arg1 (msg : Message) : (s.recordMessage msg).arg1 = s.arg1 := rfl
@[simp] theorem State.recordMessage_status (msg : Message) : (s.recordMessage msg).status = s.status := rfl
@[simp] theorem State.recordMessage_result (msg : Message) : (s.recordMessage msg).result = s.result := rfl
@[simp] theorem State.recordMessage_rxhdr (msg : Message) : (s.recordMessage msg).rxhdr = rxHeader msg := rfl
@[simp] theorem State.recordMessage_latency (msg : Message) : (s.recordMessage msg).latency = s.latency := rfl
@[simp] theorem State.recordMessage_pingrec (msg : Message) : (s.recordMessage msg).pingrec = s.pingrec := rfl
@[simp] theorem State.recordMessage_mem (msg : Message) : (s.recordMessage msg).mem = s.mem.writeBytes 0x200 (msg.m.take BUF_SIZE) := rfl
@[simp] theorem State.recordMessage_draws (msg : Message) : (s.recordMessage msg).draws = s.draws := rfl
@[simp] theorem State.recordMessage_fifo (msg : Message) : (s.recordMessage msg).fifo = s.fifo := rfl
@[simp] theorem State.recordMessage_pb (msg : Message) : (s.recordMessage msg).pb = s.pb := rfl
@[simp] theorem State.recordMessage_cbuf (msg : Message) : (s.recordMessage msg).cbuf = s.cbuf := rfl
@[simp] theorem State.recordMessage_txq (msg : Message) : (s.recordMessage msg).txq = s.txq := rfl
@[simp] theorem State.recordMessage_tmr (msg : Message) : (s.recordMessage msg).tmr = s.tmr := rfl
@[simp] theorem State.recordMessage_ctx (msg : Message) : (s.recordMessage msg).ctx = s.ctx := rfl
@[simp] theorem State.recordMessage_irq (msg : Message) : (s.recordMessage msg).irq = s.irq := rfl
@[simp] theorem State.recordMessage_inputs (msg : Message) : (s.recordMessage msg).inputs = s.inputs := rfl
@[simp] theorem State.recordMessage_outputs (msg : Message) : (s.recordMessage msg).outputs = s.outputs := rfl

@[simp] theorem State.setPhase_params (p : Phase) : (s.setPhase p).params = s.params := rfl
@[simp] theorem State.setPhase_ctrlIE (p : Phase) : (s.setPhase p).ctrlIE = s.ctrlIE := rfl
@[simp] theorem State.setPhase_cfg (p : Phase) : (s.setPhase p).cfg = s.cfg := rfl
@[simp] theorem State.setPhase_timeout (p : Phase) : (s.setPhase p).timeout = s.timeout := rfl
@[simp] theorem State.setPhase_cmd (p : Phase) : (s.setPhase p).cmd = s.cmd := rfl
@[simp] theorem State.setPhase_arg0 (p : Phase) : (s.setPhase p).arg0 = s.arg0 := rfl
@[simp] theorem State.setPhase_arg1 (p : Phase) : (s.setPhase p).arg1 = s.arg1 := rfl
@[simp] theorem State.setPhase_status (p : Phase) : (s.setPhase p).status = { s.status with phase := p } := rfl
@[simp] theorem State.setPhase_result (p : Phase) : (s.setPhase p).result = s.result := rfl
@[simp] theorem State.setPhase_rxhdr (p : Phase) : (s.setPhase p).rxhdr = s.rxhdr := rfl
@[simp] theorem State.setPhase_latency (p : Phase) : (s.setPhase p).latency = s.latency := rfl
@[simp] theorem State.setPhase_pingrec (p : Phase) : (s.setPhase p).pingrec = s.pingrec := rfl
@[simp] theorem State.setPhase_mem (p : Phase) : (s.setPhase p).mem = s.mem := rfl
@[simp] theorem State.setPhase_draws (p : Phase) : (s.setPhase p).draws = s.draws := rfl
@[simp] theorem State.setPhase_fifo (p : Phase) : (s.setPhase p).fifo = s.fifo := rfl
@[simp] theorem State.setPhase_pb (p : Phase) : (s.setPhase p).pb = s.pb := rfl
@[simp] theorem State.setPhase_cbuf (p : Phase) : (s.setPhase p).cbuf = s.cbuf := rfl
@[simp] theorem State.setPhase_txq (p : Phase) : (s.setPhase p).txq = s.txq := rfl
@[simp] theorem State.setPhase_tmr (p : Phase) : (s.setPhase p).tmr = s.tmr := rfl
@[simp] theorem State.setPhase_ctx (p : Phase) : (s.setPhase p).ctx = s.ctx := rfl
@[simp] theorem State.setPhase_irq (p : Phase) : (s.setPhase p).irq = s.irq := rfl
@[simp] theorem State.setPhase_inputs (p : Phase) : (s.setPhase p).inputs = s.inputs := rfl
@[simp] theorem State.setPhase_outputs (p : Phase) : (s.setPhase p).outputs = s.outputs := rfl

@[simp] theorem State.pushBack_params : s.pushBack.params = s.params := rfl
@[simp] theorem State.pushBack_ctrlIE : s.pushBack.ctrlIE = s.ctrlIE := rfl
@[simp] theorem State.pushBack_cfg : s.pushBack.cfg = s.cfg := rfl
@[simp] theorem State.pushBack_timeout : s.pushBack.timeout = s.timeout := rfl
@[simp] theorem State.pushBack_cmd : s.pushBack.cmd = s.cmd := rfl
@[simp] theorem State.pushBack_arg0 : s.pushBack.arg0 = s.arg0 := rfl
@[simp] theorem State.pushBack_arg1 : s.pushBack.arg1 = s.arg1 := rfl
@[simp] theorem State.pushBack_status : s.pushBack.status = s.status := rfl
@[simp] theorem State.pushBack_result : s.pushBack.result = s.result := rfl
@[simp] theorem State.pushBack_rxhdr : s.pushBack.rxhdr = s.rxhdr := rfl
@[simp] theorem State.pushBack_latency : s.pushBack.latency = s.latency := rfl
@[simp] theorem State.pushBack_pingrec : s.pushBack.pingrec = s.pingrec := rfl
@[simp] theorem State.pushBack_mem : s.pushBack.mem = s.mem := rfl
@[simp] theorem State.pushBack_draws : s.pushBack.draws = s.draws := rfl
@[simp] theorem State.pushBack_fifo : s.pushBack.fifo = s.fifo := rfl
@[simp] theorem State.pushBack_pb : s.pushBack.pb = s.cbuf.drop 1 ++ s.pb := rfl
@[simp] theorem State.pushBack_cbuf : s.pushBack.cbuf = [] := rfl
@[simp] theorem State.pushBack_txq : s.pushBack.txq = s.txq := rfl
@[simp] theorem State.pushBack_tmr : s.pushBack.tmr = s.tmr := rfl
@[simp] theorem State.pushBack_ctx : s.pushBack.ctx = s.ctx := rfl
@[simp] theorem State.pushBack_irq : s.pushBack.irq = s.irq := rfl
@[simp] theorem State.pushBack_inputs : s.pushBack.inputs = s.inputs := rfl
@[simp] theorem State.pushBack_outputs : s.pushBack.outputs = s.outputs := rfl

@[simp] theorem State.discard_params : s.discard.params = s.params := rfl
@[simp] theorem State.discard_ctrlIE : s.discard.ctrlIE = s.ctrlIE := rfl
@[simp] theorem State.discard_cfg : s.discard.cfg = s.cfg := rfl
@[simp] theorem State.discard_timeout : s.discard.timeout = s.timeout := rfl
@[simp] theorem State.discard_cmd : s.discard.cmd = s.cmd := rfl
@[simp] theorem State.discard_arg0 : s.discard.arg0 = s.arg0 := rfl
@[simp] theorem State.discard_arg1 : s.discard.arg1 = s.arg1 := rfl
@[simp] theorem State.discard_status : s.discard.status = { s.status with phase := .awaitSoh } := rfl
@[simp] theorem State.discard_result : s.discard.result = s.result := rfl
@[simp] theorem State.discard_rxhdr : s.discard.rxhdr = s.rxhdr := rfl
@[simp] theorem State.discard_latency : s.discard.latency = s.latency := rfl
@[simp] theorem State.discard_pingrec : s.discard.pingrec = s.pingrec := rfl
@[simp] theorem State.discard_mem : s.discard.mem = s.mem := rfl
@[simp] theorem State.discard_draws : s.discard.draws = s.draws := rfl
@[simp] theorem State.discard_fifo : s.discard.fifo = s.fifo := rfl
@[simp] theorem State.discard_pb : s.discard.pb = s.cbuf.drop 1 ++ s.pb := rfl
@[simp] theorem State.discard_cbuf : s.discard.cbuf = [] := rfl
@[simp] theorem State.discard_txq : s.discard.txq = s.txq := rfl
@[simp] theorem State.discard_tmr : s.discard.tmr = s.tmr := rfl
@[simp] theorem State.discard_ctx : s.discard.ctx = s.ctx := rfl
@[simp] theorem State.discard_irq : s.discard.irq = s.irq := rfl
@[simp] theorem State.discard_inputs : s.discard.inputs = s.inputs := rfl
@[simp] theorem State.discard_outputs : s.discard.outputs = s.outputs := rfl

@[simp] theorem State.startReceive_params : s.startReceive.params = s.params := rfl
@[simp] theorem State.startReceive_ctrlIE : s.startReceive.ctrlIE = s.ctrlIE := rfl
@[simp] theorem State.startReceive_cfg : s.startReceive.cfg = s.cfg := rfl
@[simp] theorem State.startReceive_timeout : s.startReceive.timeout = s.timeout := rfl
@[simp] theorem State.startReceive_cmd : s.startReceive.cmd = s.cmd := rfl
@[simp] theorem State.startReceive_arg0 : s.startReceive.arg0 = s.arg0 := rfl
@[simp] theorem State.startReceive_arg1 : s.startReceive.arg1 = s.arg1 := rfl
@[simp] theorem State.startReceive_status : s.startReceive.status = { s.status with phase := .awaitSoh } := rfl
@[simp] theorem State.startReceive_result : s.startReceive.result = s.result := rfl
@[simp] theorem State.startReceive_rxhdr : s.startReceive.rxhdr = s.rxhdr := rfl
@[simp] theorem State.startReceive_latency : s.startReceive.latency = s.latency := rfl
@[simp] theorem State.startReceive_pingrec : s.startReceive.pingrec = s.pingrec := rfl
@[simp] theorem State.startReceive_mem : s.startReceive.mem = s.mem := rfl
@[simp] theorem State.startReceive_draws : s.startReceive.draws = s.draws := rfl
@[simp] theorem State.startReceive_fifo : s.startReceive.fifo = s.fifo := rfl
@[simp] theorem State.startReceive_pb : s.startReceive.pb = s.pb := rfl
@[simp] theorem State.startReceive_cbuf : s.startReceive.cbuf = s.cbuf := rfl
@[simp] theorem State.startReceive_txq : s.startReceive.txq = s.txq := rfl
@[simp] theorem State.startReceive_tmr : s.startReceive.tmr = s.timeout := rfl
@[simp] theorem State.startReceive_ctx : s.startReceive.ctx = s.ctx := rfl
@[simp] theorem State.startReceive_irq : s.startReceive.irq = s.irq := rfl
@[simp] theorem State.startReceive_inputs : s.startReceive.inputs = s.inputs := rfl
@[simp] theorem State.startReceive_outputs : s.startReceive.outputs = s.outputs := rfl

@[simp] theorem State.recomputeIrq_params : s.recomputeIrq.params = s.params := rfl
@[simp] theorem State.recomputeIrq_ctrlIE : s.recomputeIrq.ctrlIE = s.ctrlIE := rfl
@[simp] theorem State.recomputeIrq_cfg : s.recomputeIrq.cfg = s.cfg := rfl
@[simp] theorem State.recomputeIrq_timeout : s.recomputeIrq.timeout = s.timeout := rfl
@[simp] theorem State.recomputeIrq_cmd : s.recomputeIrq.cmd = s.cmd := rfl
@[simp] theorem State.recomputeIrq_arg0 : s.recomputeIrq.arg0 = s.arg0 := rfl
@[simp] theorem State.recomputeIrq_arg1 : s.recomputeIrq.arg1 = s.arg1 := rfl
@[simp] theorem State.recomputeIrq_status : s.recomputeIrq.status = s.status := rfl
@[simp] theorem State.recomputeIrq_result : s.recomputeIrq.result = s.result := rfl
@[simp] theorem State.recomputeIrq_rxhdr : s.recomputeIrq.rxhdr = s.rxhdr := rfl
@[simp] theorem State.recomputeIrq_latency : s.recomputeIrq.latency = s.latency := rfl
@[simp] theorem State.recomputeIrq_pingrec : s.recomputeIrq.pingrec = s.pingrec := rfl
@[simp] theorem State.recomputeIrq_mem : s.recomputeIrq.mem = s.mem := rfl
@[simp] theorem State.recomputeIrq_draws : s.recomputeIrq.draws = s.draws := rfl
@[simp] theorem State.recomputeIrq_fifo : s.recomputeIrq.fifo = s.fifo := rfl
@[simp] theorem State.recomputeIrq_pb : s.recomputeIrq.pb = s.pb := rfl
@[simp] theorem State.recomputeIrq_cbuf : s.recomputeIrq.cbuf = s.cbuf := rfl
@[simp] theorem State.recomputeIrq_txq : s.recomputeIrq.txq = s.txq := rfl
@[simp] theorem State.recomputeIrq_tmr : s.recomputeIrq.tmr = s.tmr := rfl
@[simp] theorem State.recomputeIrq_ctx : s.recomputeIrq.ctx = s.ctx := rfl
@[simp] theorem State.recomputeIrq_irq : s.recomputeIrq.irq = (s.status.done && s.ctrlIE) := rfl
@[simp] theorem State.recomputeIrq_inputs : s.recomputeIrq.inputs = s.inputs := rfl
@[simp] theorem State.recomputeIrq_outputs : s.recomputeIrq.outputs = s.outputs := rfl

@[simp] theorem State.storeWord_params (buf : Buffer) (index : Nat) (v : Word) : (s.storeWord buf index v).params = s.params := rfl
@[simp] theorem State.storeWord_ctrlIE (buf : Buffer) (index : Nat) (v : Word) : (s.storeWord buf index v).ctrlIE = s.ctrlIE := rfl
@[simp] theorem State.storeWord_cfg (buf : Buffer) (index : Nat) (v : Word) : (s.storeWord buf index v).cfg = s.cfg := rfl
@[simp] theorem State.storeWord_timeout (buf : Buffer) (index : Nat) (v : Word) : (s.storeWord buf index v).timeout = s.timeout := rfl
@[simp] theorem State.storeWord_cmd (buf : Buffer) (index : Nat) (v : Word) : (s.storeWord buf index v).cmd = s.cmd := rfl
@[simp] theorem State.storeWord_arg0 (buf : Buffer) (index : Nat) (v : Word) : (s.storeWord buf index v).arg0 = s.arg0 := rfl
@[simp] theorem State.storeWord_arg1 (buf : Buffer) (index : Nat) (v : Word) : (s.storeWord buf index v).arg1 = s.arg1 := rfl
@[simp] theorem State.storeWord_status (buf : Buffer) (index : Nat) (v : Word) : (s.storeWord buf index v).status = s.status := rfl
@[simp] theorem State.storeWord_result (buf : Buffer) (index : Nat) (v : Word) : (s.storeWord buf index v).result = s.result := rfl
@[simp] theorem State.storeWord_rxhdr (buf : Buffer) (index : Nat) (v : Word) : (s.storeWord buf index v).rxhdr = s.rxhdr := rfl
@[simp] theorem State.storeWord_latency (buf : Buffer) (index : Nat) (v : Word) : (s.storeWord buf index v).latency = s.latency := rfl
@[simp] theorem State.storeWord_pingrec (buf : Buffer) (index : Nat) (v : Word) : (s.storeWord buf index v).pingrec = s.pingrec := rfl
@[simp] theorem State.storeWord_mem (buf : Buffer) (index : Nat) (v : Word) : (s.storeWord buf index v).mem = s.mem.writeBytes (buf.base + index) (le32 v) := rfl
@[simp] theorem State.storeWord_draws (buf : Buffer) (index : Nat) (v : Word) : (s.storeWord buf index v).draws = s.draws := rfl
@[simp] theorem State.storeWord_fifo (buf : Buffer) (index : Nat) (v : Word) : (s.storeWord buf index v).fifo = s.fifo := rfl
@[simp] theorem State.storeWord_pb (buf : Buffer) (index : Nat) (v : Word) : (s.storeWord buf index v).pb = s.pb := rfl
@[simp] theorem State.storeWord_cbuf (buf : Buffer) (index : Nat) (v : Word) : (s.storeWord buf index v).cbuf = s.cbuf := rfl
@[simp] theorem State.storeWord_txq (buf : Buffer) (index : Nat) (v : Word) : (s.storeWord buf index v).txq = s.txq := rfl
@[simp] theorem State.storeWord_tmr (buf : Buffer) (index : Nat) (v : Word) : (s.storeWord buf index v).tmr = s.tmr := rfl
@[simp] theorem State.storeWord_ctx (buf : Buffer) (index : Nat) (v : Word) : (s.storeWord buf index v).ctx = s.ctx := rfl
@[simp] theorem State.storeWord_irq (buf : Buffer) (index : Nat) (v : Word) : (s.storeWord buf index v).irq = s.irq := rfl
@[simp] theorem State.storeWord_inputs (buf : Buffer) (index : Nat) (v : Word) : (s.storeWord buf index v).inputs = s.inputs := rfl
@[simp] theorem State.storeWord_outputs (buf : Buffer) (index : Nat) (v : Word) : (s.storeWord buf index v).outputs = s.outputs := rfl

end Sys2Proof.Machine
end

