-- ==== Sys2Proof/Laws/Memory.lean ====
section
/-! SUPPORT. The buffers' memory: a read after a write, writes leave every other byte alone, and every operation keeps the
canonical form. -/

namespace Sys2Proof.Machine

/-! ### One byte -/

theorem cellsRead_cellsWrite_same (cs : List Host.Cell) (a : Nat) (b : Byte) :
    cellsRead (cellsWrite cs a b) a = some b := by
  induction cs with
  | nil => simp [cellsWrite, cellsRead]
  | cons c rest ih =>
    unfold cellsWrite
    split
    · simp [cellsRead]
    · split
      · simp [cellsRead]
      · next h => simp [cellsRead, Ne.symm h, ih]

theorem cellsRead_cellsWrite_other (cs : List Host.Cell) {a x : Nat} (b : Byte) (h : x ≠ a) :
    cellsRead (cellsWrite cs a b) x = cellsRead cs x := by
  induction cs with
  | nil => simp [cellsWrite, cellsRead, Ne.symm h]
  | cons c rest ih =>
    unfold cellsWrite
    split
    · simp [cellsRead, Ne.symm h]
    · split
      · next hc => subst hc; simp [cellsRead, Ne.symm h]
      · simp [cellsRead, ih]

@[simp] theorem read_write_same (m : Memory) (a : Nat) (b : Byte) : (m.write a b).read a = some b :=
  cellsRead_cellsWrite_same m.cells a b

theorem read_write_other (m : Memory) {a x : Nat} (b : Byte) (h : x ≠ a) : (m.write a b).read x = m.read x :=
  cellsRead_cellsWrite_other m.cells b h

/-! ### Many bytes -/

theorem read_writeBytes_outside (bs : List Byte) (m : Memory) {a x : Nat} (h : x < a ∨ a + bs.length ≤ x) :
    (m.writeBytes a bs).read x = m.read x := by
  induction bs generalizing m a with
  | nil => rfl
  | cons b bs ih =>
    simp only [List.length_cons] at h
    rw [Memory.writeBytes, ih _ (by omega), read_write_other _ _ (by omega)]

theorem read_writeBytes_inside (bs : List Byte) (m : Memory) (a i : Nat) (h : i < bs.length) :
    (m.writeBytes a bs).read (a + i) = some bs[i] := by
  induction bs generalizing m a i with
  | nil => simp at h
  | cons b bs ih =>
    cases i with
    | zero => rw [Memory.writeBytes, read_writeBytes_outside _ _ (by omega)]; simp
    | succ i =>
      simp only [List.length_cons] at h
      have := ih (m.write a b) (a + 1) i (by omega)
      rw [Memory.writeBytes, show a + (i + 1) = a + 1 + i by omega, this]
      simp

/-! ### The canonical form -/

/-- Every listed address is above `lo`, and the form holds. -/
theorem cellsRising_cons {c : Host.Cell} {cs : List Host.Cell} :
    cellsRising (c :: cs) = true ↔ (∀ d ∈ cs.head?, c.1 < d.1) ∧ cellsRising cs = true := by
  cases cs with
  | nil => simp [cellsRising]
  | cons d rest => simp [cellsRising]

theorem cellsWrite_head {cs : List Host.Cell} {a lo : Nat} (b : Byte) (hlo : lo < a)
    (h : ∀ d ∈ cs.head?, lo < d.1) : ∀ d ∈ (cellsWrite cs a b).head?, lo < d.1 := by
  cases cs with
  | nil => simp [cellsWrite, hlo]
  | cons c rest =>
    unfold cellsWrite
    split
    · simp [hlo]
    · split
      · simp [hlo]
      · simpa using h

theorem cellsRising_cellsWrite (cs : List Host.Cell) (a : Nat) (b : Byte) (h : cellsRising cs = true) :
    cellsRising (cellsWrite cs a b) = true := by
  induction cs with
  | nil => rfl
  | cons c rest ih =>
    rw [cellsRising_cons] at h
    unfold cellsWrite
    split
    · next hlt => rw [cellsRising_cons, cellsRising_cons]; exact ⟨by simpa using hlt, h.1, h.2⟩
    · split
      · next heq => rw [cellsRising_cons]; exact ⟨by simpa [heq] using h.1, h.2⟩
      · next hge hne => rw [cellsRising_cons]; exact ⟨cellsWrite_head b (by omega) h.1, ih h.2⟩

/-- A write of one byte keeps the canonical form. -/
theorem wf_write (m : Memory) (a : Nat) (b : Byte) (h : m.wf = true) : (m.write a b).wf = true :=
  cellsRising_cellsWrite m.cells a b h

/-- A write of many bytes keeps the canonical form. -/
theorem wf_writeBytes (bs : List Byte) (m : Memory) (a : Nat) (h : m.wf = true) : (m.writeBytes a bs).wf = true := by
  induction bs generalizing m a with
  | nil => exact h
  | cons b bs ih => exact ih _ _ (wf_write m a b h)

/-- The memory after Reset is canonical. -/
theorem wf_resetFor (p : Params) : (State.resetFor p).mem.wf = true := rfl

/-! ### Reading a byte of a state -/

/-- Two states with the same listed byte and the same draws read the same byte. -/
theorem readByte_congr {s t : State} {a : Nat} (hm : t.mem.read a = s.mem.read a) (hd : t.draws = s.draws) :
    t.readByte a = s.readByte a := by
  unfold State.readByte
  rw [hm, hd]

theorem readByte_of_read {s : State} {a : Nat} {b : Byte} (h : s.mem.read a = some b) : s.readByte a = b := by
  unfold State.readByte
  rw [h]

/-- A stored buffer's bytes read back. -/
theorem readByte_store_inside (s : State) (buf : Buffer) (bs : List Byte) (i : Nat) (h : i < bs.length) (h256 : i < 256) :
    (s.store buf bs).readByte (buf.base + i) = bs[i] := by
  have hi : i < (bs.take BUF_SIZE).length := by simp [BUF_SIZE]; omega
  refine readByte_of_read ?_
  rw [State.store_mem, read_writeBytes_inside _ _ _ _ hi]
  simp

/-- A store to a buffer leaves every byte outside what it writes alone. -/
theorem readByte_store_outside (s : State) (buf : Buffer) (bs : List Byte) (a : Nat)
    (h : a < buf.base ∨ buf.base + bs.length ≤ a ∨ buf.base + 256 ≤ a) : (s.store buf bs).readByte a = s.readByte a := by
  refine readByte_congr ?_ rfl
  rw [State.store_mem]
  refine read_writeBytes_outside _ _ ?_
  simp only [List.length_take, BUF_SIZE]
  omega

@[simp] theorem length_readBytes (s : State) (a n : Nat) : (s.readBytes a n).length = n := by
  simp [State.readBytes]

@[simp] theorem length_load (s : State) (buf : Buffer) (n : Nat) : (s.load buf n).length = n := by
  simp [State.load]

end Sys2Proof.Machine
end

