-- ==== Sys2Proof/Laws/Codec.lean ====
section
/-! SUPPORT. The frame codec and the kind codes: what each function answers, once. -/

namespace Sys2Proof

/-! ### Frames -/

@[simp] theorem length_frameHead (msg : Message) : (frameHead msg).length = 5 + msg.m.length := by
  simp [frameHead]; omega

@[simp] theorem length_frameOf (alg : ChkAlg) (msg : Message) : (frameOf alg msg).length = 6 + msg.m.length := by
  simp [frameOf]; omega

theorem frameOf_ne_nil (alg : ChkAlg) (msg : Message) : frameOf alg msg ≠ [] := by
  intro h
  have := congrArg List.length h
  simp at this

/-- `encode` answers the frame for a message of at most 248 bytes. -/
theorem encodeFrame_of_le {alg : ChkAlg} {src dst kind : Byte} {m : List Byte} (h : m.length ≤ MAX_M) :
    encodeFrame alg src dst kind m = .ok (frameOf alg { src := src, dst := dst, kind := kind, m := m }) := by
  unfold encodeFrame
  rw [if_neg (by omega)]

/-- `encode` refuses a longer one. -/
theorem encodeFrame_of_lt {alg : ChkAlg} {src dst kind : Byte} {m : List Byte} (h : MAX_M < m.length) :
    encodeFrame alg src dst kind m = .error .payloadTooLarge := by
  unfold encodeFrame
  rw [if_pos h]

/-- Whatever `encode` answers. -/
theorem encodeFrame_cases (alg : ChkAlg) (src dst kind : Byte) (m : List Byte) :
    (m.length ≤ MAX_M ∧
      encodeFrame alg src dst kind m = .ok (frameOf alg { src := src, dst := dst, kind := kind, m := m })) ∨
    (MAX_M < m.length ∧ encodeFrame alg src dst kind m = .error .payloadTooLarge) := by
  rcases Nat.lt_or_ge MAX_M m.length with h | h
  · exact .inr ⟨h, encodeFrame_of_lt h⟩
  · exact .inl ⟨h, encodeFrame_of_le h⟩

/-! ### Byte order -/

@[simp] theorem length_le16 (v : Nat) : (le16 v).length = 2 := rfl

@[simp] theorem length_le32 (v : Word) : (le32 v).length = 4 := rfl

/-! ### Kind codes -/

theorem Kind.mem_all (k : Kind) : k ∈ Kind.all := by cases k <;> decide

/-- What `noPair` says: no two positions are related. -/
theorem noPair_iff {α : Type} (r : α → α → Bool) (xs : List α) :
    noPair r xs = true ↔ xs.Pairwise (fun a b => r a b = false) := by
  induction xs with
  | nil => simp [noPair]
  | cons x xs ih => simp [noPair, ih, List.pairwise_cons]

/-- Distinct codes tell the kinds apart (R8). -/
theorem code_injective {c : KindCodes} (h : c.distinct = true) {j k : Kind} (e : c.code j = c.code k) : j = k := by
  unfold KindCodes.distinct at h
  rw [noPair_iff] at h
  have hnodup : (Kind.all.map c.code).Nodup := h.imp (fun hab => by simpa using hab)
  exact List.inj_on_of_nodup_map hnodup (Kind.mem_all j) (Kind.mem_all k) e

theorem distinct_of_problem {p : ParamSet} (h : p.problem = none) : p.kindCodes.distinct = true := by
  unfold ParamSet.problem at h
  split at h
  · simp at h
  · next hd => simpa using hd

/-- The code of a kind names the kind. -/
theorem kindOf_code {c : KindCodes} (h : c.distinct = true) (k : Kind) : kindOf c (c.code k) = some k := by
  unfold kindOf
  rcases hf : Kind.all.find? (fun j => c.code j == c.code k) with _ | j
  · rw [List.find?_eq_none] at hf
    exact absurd (beq_self_eq_true (c.code k)) (hf k (Kind.mem_all k))
  · have hj : (c.code j == c.code k) = true := List.find?_some (p := fun j => c.code j == c.code k) hf
    rw [code_injective h (beq_iff_eq.mp hj)]

/-- A named code is the code of its kind. -/
theorem code_of_kindOf {c : KindCodes} {b : Byte} {k : Kind} (h : kindOf c b = some k) : c.code k = b :=
  beq_iff_eq.mp (List.find?_some (p := fun j => c.code j == b) h)

end Sys2Proof
end

