-- ==== Sys2Proof/Laws/Ops.lean ====
section
/-! SUPPORT. One lemma per shared operation that says everything it can do, cited in place of unfolding it. -/

namespace Sys2Proof.Machine

/-! ### Completion -/

/-- `complete()` leaves the completion record, STATUS.ERR, NOK and RESULT as they are (R243). -/
theorem complete_eq_ended (s : State) : s.complete = s.ended s.status.err s.status.nok s.result := rfl

/-- `raise E` leaves the completion record with error `E` (R241). -/
theorem raise_eq_ended (s : State) (e : ErrCode) : s.raise e = s.ended e s.status.nok s.result := rfl

/-! ### Requests -/

theorem request_of_le {s : State} {dst kind : Byte} {m : List Byte} (h : m.length ≤ MAX_M) :
    s.request dst kind m =
      .ok (frameOf s.set.chkAlg { src := s.masterId, dst := dst, kind := kind, m := m }) :=
  encodeFrame_of_le h

theorem request_of_lt {s : State} {dst kind : Byte} {m : List Byte} (h : MAX_M < m.length) :
    s.request dst kind m = .error .payloadTooLarge :=
  encodeFrame_of_lt h

/-- An exchange of a message that fits queues its frame and awaits the check (R151, R156). -/
theorem exchange_of_le {s : State} {dst kind : Byte} {m : List Byte} (c : ReplyCheck) (h : m.length ≤ MAX_M) :
    s.exchange dst kind m c =
      s.sending (frameOf s.set.chkAlg { src := s.masterId, dst := dst, kind := kind, m := m }) (some c) := by
  unfold State.exchange
  rw [request_of_le h]
  rfl

/-- An exchange of a message that does not fit ends with PAYLOAD_TOO_LARGE; nothing is sent (R156). -/
theorem exchange_of_lt {s : State} {dst kind : Byte} {m : List Byte} (c : ReplyCheck) (h : MAX_M < m.length) :
    s.exchange dst kind m c = s.raise .payloadTooLarge := by
  unfold State.exchange
  rw [request_of_lt h]

/-- Everything an exchange can do. -/
theorem exchange_cases (s : State) (dst kind : Byte) (m : List Byte) (c : ReplyCheck) :
    (m.length ≤ MAX_M ∧ s.exchange dst kind m c =
      s.sending (frameOf s.set.chkAlg { src := s.masterId, dst := dst, kind := kind, m := m }) (some c)) ∨
    (MAX_M < m.length ∧ s.exchange dst kind m c = s.raise .payloadTooLarge) := by
  rcases Nat.lt_or_ge MAX_M m.length with h | h
  · exact .inr ⟨h, exchange_of_lt c h⟩
  · exact .inl ⟨h, exchange_of_le c h⟩

theorem sendOnly_of_le {s : State} {dst kind : Byte} {m : List Byte} (h : m.length ≤ MAX_M) :
    s.sendOnly dst kind m =
      s.sending (frameOf s.set.chkAlg { src := s.masterId, dst := dst, kind := kind, m := m }) none := by
  unfold State.sendOnly
  rw [request_of_le h]
  rfl

theorem sendOnly_of_lt {s : State} {dst kind : Byte} {m : List Byte} (h : MAX_M < m.length) :
    s.sendOnly dst kind m = s.raise .payloadTooLarge := by
  unfold State.sendOnly
  rw [request_of_lt h]

/-- Everything a send without a reply can do. -/
theorem sendOnly_cases (s : State) (dst kind : Byte) (m : List Byte) :
    (m.length ≤ MAX_M ∧ s.sendOnly dst kind m =
      s.sending (frameOf s.set.chkAlg { src := s.masterId, dst := dst, kind := kind, m := m }) none) ∨
    (MAX_M < m.length ∧ s.sendOnly dst kind m = s.raise .payloadTooLarge) := by
  rcases Nat.lt_or_ge MAX_M m.length with h | h
  · exact .inr ⟨h, sendOnly_of_lt h⟩
  · exact .inl ⟨h, sendOnly_of_le h⟩

/-! ### Reception -/

/-- Everything the storing of a received byte can do (R141). -/
theorem pushRx_cases (s : State) (b : Byte) :
    (s.fifo.length < s.set.rxFifoDepth ∧ s.pushRx b = { s with fifo := s.fifo ++ [b] }) ∨
    (s.set.rxFifoDepth ≤ s.fifo.length ∧ s.pushRx b = { s with status := { s.status with ovr := true } }) := by
  unfold State.pushRx
  split
  · exact .inl ⟨by assumption, rfl⟩
  · exact .inr ⟨by omega, rfl⟩

@[simp] theorem pushRx_phase (s : State) (b : Byte) : (s.pushRx b).status.phase = s.status.phase := by
  rcases pushRx_cases s b with ⟨_, h⟩ | ⟨_, h⟩ <;> rw [h]

/-- The record of a message, in the terms of claims. -/
theorem recordMessage_eq_recorded (s : State) (msg : Message) : s.recordMessage msg = s.recorded msg := rfl

/-- A frame in a receive phase is delivered (R146, R157). -/
theorem receiveMessage_of_receiving {s : State} {c : ReplyCheck} (msg : Message)
    (hp : s.status.phase.receiving = true) (hc : s.ctx = some c) : s.receiveMessage msg = s.deliver c msg := by
  unfold State.receiveMessage
  rw [if_pos hp, hc]

/-- A frame outside one is stored (R141). -/
theorem receiveMessage_of_not_receiving {s : State} (msg : Message) (hp : s.status.phase.receiving = false) :
    s.receiveMessage msg = s.pushRxAll (frameOf s.set.chkAlg msg) := by
  unfold State.receiveMessage
  rw [if_neg (by simp [hp])]

/-! ### Checks -/

/-- Everything a reply check can do: accept with a result and a ping record, note a refusal, or raise
UNEXPECTED_REPLY (R180). -/
theorem run_cases (c : ReplyCheck) (msg : Message) (s : State) :
    (∃ r g v, c.run msg s =
      State.ended { s with pingrec := g, status := { s.status with prValid := v } } s.status.err s.status.nok r) ∨
    c.run msg s = s.ended s.status.err true s.result ∨
    c.run msg s = s.ended .unexpectedReply s.status.nok s.result := by
  have other : s.refusedOrUnexpected msg = s.ended s.status.err true s.result ∨
      s.refusedOrUnexpected msg = s.ended .unexpectedReply s.status.nok s.result := by
    unfold State.refusedOrUnexpected
    split
    · exact .inl rfl
    · exact .inr rfl
  cases c with
  | any => exact .inl ⟨_, s.pingrec, s.status.prValid, rfl⟩
  | ping d =>
    simp only [ReplyCheck.run, checkPing]
    split
    · exact .inl ⟨_, _, true, rfl⟩
    · exact .inr other
  | ack =>
    simp only [ReplyCheck.run, checkAck]
    split
    · exact .inl ⟨s.result, s.pingrec, s.status.prValid, rfl⟩
    · exact .inr other
  | info =>
    simp only [ReplyCheck.run, checkInfo]
    split
    · exact .inl ⟨_, s.pingrec, s.status.prValid, rfl⟩
    · exact .inr other
  | read n =>
    simp only [ReplyCheck.run, checkRead]
    split
    · exact .inl ⟨_, s.pingrec, s.status.prValid, rfl⟩
    · exact .inr other
  | typed d =>
    simp only [ReplyCheck.run, checkTyped]
    split
    · exact .inl ⟨_, s.pingrec, s.status.prValid, rfl⟩
    · exact .inr other

/-! ### The parser -/

/-- Everything `next_byte()` can do (R142). -/
theorem nextByte_cases (s : State) :
    (∃ b pb, s.pb = b :: pb ∧ s.nextByte = some (b, { s with pb := pb })) ∨
    (∃ b fifo, s.pb = [] ∧ s.fifo = b :: fifo ∧ s.nextByte = some (b, { s with fifo := fifo })) ∨
    (s.pb = [] ∧ s.fifo = [] ∧ s.nextByte = none) := by
  unfold State.nextByte
  rcases s.pb with _ | ⟨b, pb⟩
  · rcases s.fifo with _ | ⟨b, fifo⟩
    · exact .inr (.inr ⟨rfl, rfl, rfl⟩)
    · exact .inr (.inl ⟨b, fifo, rfl, rfl, rfl⟩)
  · exact .inl ⟨b, pb, rfl, rfl⟩

/-- One round of the parser (R148). -/
theorem parse_succ (fuel : Nat) (s : State) :
    State.parse (fuel + 1) s =
      if s.status.phase.receiving then
        match s.nextByte with
        | none => (s, none)
        | some (b, t) =>
          match t.parseByte b with
          | (u, some msg) => (u, some msg)
          | (u, none) => State.parse fuel u
      else (s, none) := rfl

/-- What one byte of the parser can change: the candidate, the bytes pushed back, the phase and the two seen flags (R143 to
R147). -/
theorem parseByte_frame (s : State) (b : Byte) :
    (s.parseByte b).1 =
      { s with
        pb := (s.parseByte b).1.pb
        cbuf := (s.parseByte b).1.cbuf
        status := { s.status with
          phase := (s.parseByte b).1.status.phase
          chkseen := (s.parseByte b).1.status.chkseen
          lenseen := (s.parseByte b).1.status.lenseen } } := by
  unfold State.parseByte
  split <;> simp only [State.parseSoh, State.parseHeader, State.parsePayload, State.parseChecksum]
  all_goals (try split) <;> (try split) <;> rfl

/-- One byte leaves the parser in the receive phase (R143 to R147). -/
theorem parseByte_receiving (s : State) (b : Byte) (h : s.status.phase.receiving = true) :
    (s.parseByte b).1.status.phase.receiving = true := by
  unfold State.parseByte
  split <;> simp only [State.parseSoh, State.parseHeader, State.parsePayload, State.parseChecksum]
  all_goals (try split) <;> (try split) <;> first | rfl | exact h

/-- Everything `expire()` can do (R154). -/
theorem expire_cases (s : State) :
    (s.status.phase = .awaitSoh ∧ s.expire = s.ended .timeout s.status.nok s.result) ∨
    (s.status.phase ≠ .awaitSoh ∧ s.expire =
      State.ended { s with pb := s.cbuf.drop 1 ++ s.pb } .messageIncomplete s.status.nok s.result) := by
  unfold State.expire
  split
  · exact .inl ⟨by assumption, rfl⟩
  · exact .inr ⟨by assumption, rfl⟩

/-! ### The step -/

theorem step_nil {s : State} (h : s.inputs = []) : step s = .next s := by
  unfold step
  rw [h]

theorem step_cons {s : State} {e : Event} {rest : List Event} (h : s.inputs = e :: rest) :
    step s = onNext (respond e { s with inputs := rest }) State.recomputeIrq := by
  unfold step
  rw [h]
  rfl

@[simp] theorem onNext_next (s : State) (f : State → State) : onNext (.next s) f = .next (f s) := rfl

@[simp] theorem onNext_refused (r : Refusal) (f : State → State) : onNext (.refused r) f = .refused r := rfl

/-- A next state after `onNext` comes from a next state before it. -/
theorem onNext_eq_next {o : Host.Outcome State Fault Refusal} {f : State → State} {t : State}
    (h : onNext o f = .next t) : ∃ u, o = .next u ∧ t = f u := by
  cases o with
  | next u => exact ⟨u, rfl, by simpa using h.symm⟩
  | fault r => simp [onNext] at h
  | refused r => simp [onNext] at h

/-- Acceptance, in the terms of claims. -/
theorem accept_eq_accepted (s : State) (v : Word) : s.accept v = s.accepted v := by
  have hp : (s.status.prValid && !(cmdOp v == 0x20)) = if v.extractLsb' 0 8 = 0x20 then false else s.status.prValid := by
    unfold cmdOp byteAt
    by_cases h : v.extractLsb' 0 8 = 0x20#8 <;> simp [h]
  have hc : v.setWidth 24 = v.extractLsb' 0 24 := by
    ext i hi
    simp
  simp only [State.accept, State.accepted, hp, hc]

/-- Every meaning answers a next state. -/
theorem exec_next (i : Instr) (s : State) : ∃ t, exec i s = .next t := by
  cases i with
  | encode dst kind => simp only [exec, execEncode]; split <;> exact ⟨_, rfl⟩
  | decode => simp only [exec, execDecode]; split <;> exact ⟨_, rfl⟩
  | read dst => simp only [exec, execRead]; split <;> exact ⟨_, rfl⟩
  | write dst => simp only [exec, execWrite]; split <;> exact ⟨_, rfl⟩
  | readTyped dst => simp only [exec, execReadTyped]; split <;> exact ⟨_, rfl⟩
  | writeTyped dst =>
    simp only [exec, execWriteTyped]
    split
    · exact ⟨_, rfl⟩
    · split
      · exact ⟨_, rfl⟩
      · split <;> exact ⟨_, rfl⟩
  | _ => exact ⟨_, rfl⟩

/-- The instruction of a named kind is the reception of its message. -/
theorem exec_instrOfKind (k : Kind) (src dst : Byte) (m : List Byte) (s : State) :
    exec (instrOfKind k src dst m) s = .next (s.receiveKind k src dst m) := by
  cases k <;> rfl

/-- A delivered message is received by the one rule, whether its kind has a name or not (R96, R157). -/
theorem runMessage_eq (msg : Message) (s : State) : runMessage msg s = .next (s.receiveMessage msg) := by
  unfold runMessage decodeMessage
  cases h : kindOf s.set.kindCodes msg.kind with
  | none => rfl
  | some k =>
    simp only
    rw [exec_instrOfKind, State.receiveKind, State.code, code_of_kindOf h]

end Sys2Proof.Machine
end

