-- ==== Sys2Proof/Laws/PerInstr.lean ====
section
/-! SUPPORT. Facts about every instruction's encoding, one lemma per constructor. -/

namespace Sys2Proof.Laws

/-- The form of an instruction's bits: a command word has its reserved bits 31:24 clear (R80, R85); a frame has LEN
bytes, from 6 to 255 (R91, R93). -/
def EncodingShape.Statement (i : Instr) : Prop :=
  ∀ p : ParamSet, i.wf = true →
    match encode p i with
    | .cmd v => v.extractLsb' 24 8 = 0
    | .frame bs => 6 ≤ bs.length ∧ bs.length ≤ 255 ∧ (bs.getD 1 0).toNat = bs.length

theorem cmdWord_reserved (op dst kind : Byte) : (cmdWord op dst kind).extractLsb' 24 8 = 0 := by
  ext i hi
  have h0 : op.getLsbD (24 + i) = false := BitVec.getLsbD_of_ge op _ (by omega)
  have h1 : dst.getLsbD (24 + i - 8) = false := BitVec.getLsbD_of_ge dst _ (by omega)
  have h2 : kind.getLsbD (24 + i - 16) = false := BitVec.getLsbD_of_ge kind _ (by omega)
  simp [cmdWord, packWord, -BitVec.getLsbD_eq_getElem, h0, h1, h2]

theorem frameOf_shape (alg : ChkAlg) (msg : Message) (h : messageOk msg.m = true) :
    6 ≤ (frameOf alg msg).length ∧ (frameOf alg msg).length ≤ 255 ∧
      ((frameOf alg msg).getD 1 0).toNat = (frameOf alg msg).length := by
  have hm : msg.m.length ≤ 249 := of_decide_eq_true h
  refine ⟨by simp, by simp; omega, ?_⟩
  rw [length_frameOf]
  simp [frameOf, frameHead, lenByte, MIN_LEN, Nat.mod_eq_of_lt (show 6 + msg.m.length < 256 by omega)]

end Sys2Proof.Laws

namespace Sys2Proof.Laws.EncodingShape

theorem checksum : Statement .checksum := fun _ _ => cmdWord_reserved _ _ _
theorem encode (dst kind : Byte) : Statement (.encode dst kind) := fun _ _ => cmdWord_reserved _ _ _
theorem decode : Statement .decode := fun _ _ => cmdWord_reserved _ _ _
theorem flush : Statement .flush := fun _ _ => cmdWord_reserved _ _ _
theorem exchange (dst kind : Byte) : Statement (.exchange dst kind) := fun _ _ => cmdWord_reserved _ _ _
theorem send (dst kind : Byte) : Statement (.send dst kind) := fun _ _ => cmdWord_reserved _ _ _
theorem ping (dst : Byte) : Statement (.ping dst) := fun _ _ => cmdWord_reserved _ _ _
theorem resetSoft (dst : Byte) : Statement (.resetSoft dst) := fun _ _ => cmdWord_reserved _ _ _
theorem resetHard (dst : Byte) : Statement (.resetHard dst) := fun _ _ => cmdWord_reserved _ _ _
theorem sleep (dst : Byte) : Statement (.sleep dst) := fun _ _ => cmdWord_reserved _ _ _
theorem getInfo (dst : Byte) : Statement (.getInfo dst) := fun _ _ => cmdWord_reserved _ _ _
theorem sync : Statement .sync := fun _ _ => cmdWord_reserved _ _ _
theorem pingLatest : Statement .pingLatest := fun _ _ => cmdWord_reserved _ _ _
theorem read (dst : Byte) : Statement (.read dst) := fun _ _ => cmdWord_reserved _ _ _
theorem write (dst : Byte) : Statement (.write dst) := fun _ _ => cmdWord_reserved _ _ _
theorem readTyped (dst : Byte) : Statement (.readTyped dst) := fun _ _ => cmdWord_reserved _ _ _
theorem writeTyped (dst : Byte) : Statement (.writeTyped dst) := fun _ _ => cmdWord_reserved _ _ _
theorem kindPing (src dst : Byte) (m : List Byte) : Statement (.kindPing src dst m) := fun _ h => frameOf_shape _ _ h
theorem kindPingReply (src dst : Byte) (m : List Byte) : Statement (.kindPingReply src dst m) := fun _ h => frameOf_shape _ _ h
theorem kindAckOk (src dst : Byte) (m : List Byte) : Statement (.kindAckOk src dst m) := fun _ h => frameOf_shape _ _ h
theorem kindAckNok (src dst : Byte) (m : List Byte) : Statement (.kindAckNok src dst m) := fun _ h => frameOf_shape _ _ h
theorem kindSleep (src dst : Byte) (m : List Byte) : Statement (.kindSleep src dst m) := fun _ h => frameOf_shape _ _ h
theorem kindResetSoft (src dst : Byte) (m : List Byte) : Statement (.kindResetSoft src dst m) := fun _ h => frameOf_shape _ _ h
theorem kindResetHard (src dst : Byte) (m : List Byte) : Statement (.kindResetHard src dst m) := fun _ h => frameOf_shape _ _ h
theorem kindReadReg (src dst : Byte) (m : List Byte) : Statement (.kindReadReg src dst m) := fun _ h => frameOf_shape _ _ h
theorem kindReadReply (src dst : Byte) (m : List Byte) : Statement (.kindReadReply src dst m) := fun _ h => frameOf_shape _ _ h
theorem kindWriteReg (src dst : Byte) (m : List Byte) : Statement (.kindWriteReg src dst m) := fun _ h => frameOf_shape _ _ h
theorem kindGetInfo (src dst : Byte) (m : List Byte) : Statement (.kindGetInfo src dst m) := fun _ h => frameOf_shape _ _ h
theorem kindInfoReply (src dst : Byte) (m : List Byte) : Statement (.kindInfoReply src dst m) := fun _ h => frameOf_shape _ _ h
theorem kindSync (src dst : Byte) (m : List Byte) : Statement (.kindSync src dst m) := fun _ h => frameOf_shape _ _ h

end Sys2Proof.Laws.EncodingShape
end

