-- ==== Sys2Proof/Laws/Window.lean ====
section
/-! SUPPORT. The host window and the address decoder: where each address leads, what an access answers, and what the
read-only check says. -/

namespace Sys2Proof.Machine

/-! ### Addresses (R27, R61) -/

@[simp] theorem placeOf_ctrl : placeOf 0x000#12 = .ctrl := by decide
@[simp] theorem placeOf_cfg : placeOf 0x004#12 = .cfg := by decide
@[simp] theorem placeOf_timeout : placeOf 0x008#12 = .timeout := by decide
@[simp] theorem placeOf_cmd : placeOf 0x00C#12 = .cmd := by decide
@[simp] theorem placeOf_arg0 : placeOf 0x010#12 = .arg0 := by decide
@[simp] theorem placeOf_arg1 : placeOf 0x014#12 = .arg1 := by decide
@[simp] theorem placeOf_status : placeOf 0x018#12 = .status := by decide
@[simp] theorem placeOf_result : placeOf 0x01C#12 = .result := by decide
@[simp] theorem placeOf_rxhdr : placeOf 0x020#12 = .rxhdr := by decide
@[simp] theorem placeOf_latency : placeOf 0x024#12 = .latency := by decide
@[simp] theorem placeOf_pingrec : placeOf 0x028#12 = .pingrec := by decide
@[simp] theorem placeOf_rxlevel : placeOf 0x02C#12 = .rxlevel := by decide

theorem placeOf_txbuf {a : BitVec 12} (h : 0x100 ≤ a.toNat) (h' : a.toNat < 0x200) :
    placeOf a = .buffer .txbuf (a.toNat - 0x100) := by
  unfold placeOf
  rw [if_neg (by omega), if_neg (by omega), if_pos (by omega)]

theorem placeOf_rxbuf {a : BitVec 12} (h : 0x200 ≤ a.toNat) (h' : a.toNat < 0x300) :
    placeOf a = .buffer .rxbuf (a.toNat - 0x200) := by
  unfold placeOf
  rw [if_neg (by omega), if_neg (by omega), if_neg (by omega), if_pos (by omega)]

theorem placeOf_framebuf {a : BitVec 12} (h : 0x300 ≤ a.toNat) (h' : a.toNat < 0x400) :
    placeOf a = .buffer .framebuf (a.toNat - 0x300) := by
  unfold placeOf
  rw [if_neg (by omega), if_neg (by omega), if_neg (by omega), if_neg (by omega), if_pos (by omega)]

theorem placeOf_desc {a : BitVec 12} (h : 0x400 ≤ a.toNat) (h' : a.toNat < 0x500) :
    placeOf a = .desc ((a.toNat - 0x400) / 4) := by
  unfold placeOf
  rw [if_neg (by omega), if_neg (by omega), if_neg (by omega), if_neg (by omega), if_neg (by omega), if_pos (by omega)]

theorem placeOf_reserved {a : BitVec 12} (h : 0x030 ≤ a.toNat) (h' : a.toNat < 0x100 ∨ 0x500 ≤ a.toNat) :
    placeOf a = .reserved := by
  unfold placeOf
  rw [if_neg (by omega)]
  rcases h' with h' | h'
  · rw [if_pos (by omega)]
  · rw [if_neg (by omega), if_neg (by omega), if_neg (by omega), if_neg (by omega), if_neg (by omega)]

/-! ### Accesses (R62, R65, R66) -/

theorem hostAccessOk_iff (size : Nat) (a : BitVec 12) :
    hostAccessOk size a = true ↔ size = 4 ∧ a.toNat % 4 = 0 := by
  simp [hostAccessOk]

theorem hostWrite_ok {a : BitVec 12} (h : a.toNat % 4 = 0) (v : Word) (s : State) :
    hostWrite 4 a v s = writePlace (placeOf a) v s := by
  unfold hostWrite
  rw [if_pos ((hostAccessOk_iff 4 a).mpr ⟨rfl, h⟩)]

theorem hostRead_ok {a : BitVec 12} (h : a.toNat % 4 = 0) (s : State) :
    hostRead 4 a s = .next { s with outputs := s.outputs ++ [.readData (s.hostWord a)] } := by
  unfold hostRead
  rw [if_pos ((hostAccessOk_iff 4 a).mpr ⟨rfl, h⟩)]

/-- Everything a protected write can do (R160). -/
theorem protect_cases (s t : State) :
    (s.status.busy = true ∧ s.protect t = { s with status := { s.status with werr := true } }) ∨
    (s.status.busy = false ∧ s.protect t = t) := by
  unfold State.protect
  cases h : s.status.busy
  · exact .inr ⟨rfl, rfl⟩
  · exact .inl ⟨rfl, rfl⟩

/-- Everything a write to CMD can do (R158, R159, R84). -/
theorem writeCmd_cases (v : Word) (s : State) :
    (s.status.busy = true ∧ writeCmd v s = .next { s with status := { s.status with cmderr := true } }) ∨
    (s.status.busy = false ∧ ∃ i, decodeCmd v = .ok i ∧ writeCmd v s = exec i (s.accepted v)) ∨
    (s.status.busy = false ∧ ∃ e, decodeCmd v = .error e ∧ writeCmd v s = .next ((s.accepted v).ended .illegalCmd false 0)) := by
  unfold writeCmd
  cases h : s.status.busy
  · rcases hd : decodeCmd v with e | i
    · refine .inr (.inr ⟨rfl, e, rfl, ?_⟩)
      rw [accept_eq_accepted]
      rfl
    · refine .inr (.inl ⟨rfl, i, rfl, ?_⟩)
      rw [accept_eq_accepted]
      rfl
  · exact .inl ⟨rfl, rfl⟩

/-! ### The read-only check (R212, R215) -/

theorem roHit_iff (regmap : List Descriptor) (o n : Nat) :
    roHit regmap o n = true ↔ ∃ d ∈ regmap, d.ro = true ∧ d.offset < o + n ∧ o < d.offset + d.width := by
  simp only [roHit, hits, List.any_filter, List.any_eq_true, List.mem_range]
  constructor
  · rintro ⟨i, hi, h⟩
    simp only [List.getElem?_eq_getElem hi, Bool.and_eq_true] at h
    exact ⟨_, List.getElem_mem hi, h.2, by simpa [covers] using h.1⟩
  · rintro ⟨d, hd, h⟩
    obtain ⟨i, hi, rfl⟩ := List.mem_iff_getElem.mp hd
    exact ⟨i, hi, by simp [List.getElem?_eq_getElem hi, covers, h]⟩

/-! ### What the parameters promise (R8, R210) -/

theorem rxFifoDepth_pos (s : State) : 0 < s.set.rxFifoDepth := by
  have h := s.params.ok
  unfold ParamSet.problem at h
  split at h
  · simp at h
  · split at h
    · simp at h
    · next hd =>
      have : s.params.set.rxFifoDepth ≠ 0 := by simpa using hd
      exact Nat.pos_of_ne_zero this

theorem kindCodes_distinct (s : State) : s.set.kindCodes.distinct = true := distinct_of_problem s.params.ok

end Sys2Proof.Machine
end

