-- ==== Sys2Proof/Tests/Slice0.lean ====
section
/-! SUPPORT. Small tests with the expected results the spec writes out (95_test_vectors.md and the examples of the rules),
and, for every statement with hypotheses, a concrete witness that meets them. -/

namespace Sys2Proof.Tests

open Sys2Proof.Machine

-- One kernel evaluation at a time: many at once need more threads than a memory limit leaves room for.
set_option Elab.async false

/-! ### Helper states -/

/-- The engine after Reset with these operands, the expected version set to 0 (its reset value is open, R284). -/
def idle (arg0 arg1 : Word) : State := { State.reset with cfg := 0x0000FF00, arg0 := arg0, arg1 := arg1 }

/-- A command in its receive phase, nothing received. -/
def awaiting (c : ReplyCheck) : State :=
  { State.reset with
    status := { Status.reset with busy := true, phase := .awaitSoh }
    ctx := some c
    tmr := 5 }

/-- The same command, all of a frame but its checksum received. -/
def lastByte (c : ReplyCheck) (cbuf : List Byte) : State :=
  { awaiting c with
    status := { Status.reset with busy := true, phase := .awaitChecksum }
    cbuf := cbuf }

/-- A command in a phase of its receive phase with a candidate begun. -/
def parsing (phase : Phase) (cbuf : List Byte) : State :=
  { awaiting .any with status := { Status.reset with busy := true, phase := phase }, cbuf := cbuf }

/-- A command with these bytes still to send. -/
def transmitting (txq : List Byte) (ctx : Option ReplyCheck) (timeout : Word) : State :=
  { State.reset with
    status := { Status.reset with busy := true, phase := .tx }
    txq := txq
    ctx := ctx
    timeout := timeout }

/-- Bytes stored from an address. -/
def withBytes (s : State) (a : Nat) (bs : List Byte) : State := { s with mem := s.mem.writeBytes a bs }

/-- The next state of an outcome. -/
def after (o : Host.Outcome State Fault Refusal) : Option State :=
  match o with
  | .next s => some s
  | .fault _ => none
  | .refused _ => none

/-- The bytes a command queued. -/
def sent (o : Host.Outcome State Fault Refusal) : Option (List Byte) := (after o).map (fun s => s.txq)

/-- STATUS.ERR, NOK, RESULT and RXHDR after a completed command. -/
def record (o : Host.Outcome State Fault Refusal) : Option (ErrCode × Bool × Word × Word) :=
  match after o with
  | some s => if s.status.done then some (s.status.err, s.status.nok, s.result, s.rxhdr) else none
  | none => none

/-- A descriptor of a byte buffer. -/
def bytebuf (offset width : Nat) (ro : Bool) : Descriptor :=
  { name := "BUF", offset := offset, width := width, type := .bytebuf, nv := false, ro := ro }

/-- The default parameters with another register map. -/
def withMap (regmap : List Descriptor) : ParamSet := { Config.paramSet with regmap := regmap }

theorem bytebuf247_admissible : (withMap [bytebuf 0 247 false]).problem = none := by decide +kernel

theorem bytebuf246_admissible : (withMap [bytebuf 0 246 false]).problem = none := by decide +kernel

/-- The engine after Reset with a map of one 247-byte buffer. -/
def idle247 : State := State.resetFor ⟨withMap [bytebuf 0 247 false], bytebuf247_admissible⟩

/-- The engine after Reset with a map of one 246-byte buffer. -/
def idle246 : State := State.resetFor ⟨withMap [bytebuf 0 246 false], bytebuf246_admissible⟩

/-! ### WellFormed: an ill-formed term for each check -/

theorem test_refuses_equal_codes :
    { Config.paramSet with kindCodes := { Config.kindCodes with sync := 0x00 } : ParamSet }.problem =
      some .kindCodesNotDistinct := by decide +kernel

theorem test_refuses_no_fifo :
    { Config.paramSet with rxFifoDepth := 0 : ParamSet }.problem = some .rxFifoDepthZero := by decide +kernel

theorem test_refuses_memlock_past_end :
    { Config.paramSet with memlockOffset := 65533 : ParamSet }.problem = some .memlockPastEnd := by decide +kernel

theorem test_refuses_long_map :
    (withMap (List.replicate 65 (bytebuf 0 1 false))).problem = some .regmapTooLong := by decide +kernel

theorem test_refuses_wide_buffer : (withMap [bytebuf 0 249 false]).problem = some .badWidth := by decide +kernel

theorem test_refuses_narrow_float :
    (withMap [{ bytebuf 0 3 false with type := .float32 }]).problem = some .badWidth := by decide +kernel

theorem test_refuses_past_end : (withMap [bytebuf 65535 2 false]).problem = some .descriptorPastEnd := by decide +kernel

theorem test_refuses_overlap :
    (withMap [bytebuf 0 4 false, { bytebuf 3 1 false with name := "B" }]).problem = some .descriptorsOverlap := by
  decide +kernel

theorem test_refuses_equal_names :
    (withMap [bytebuf 0 4 false, bytebuf 4 1 false]).problem = some .namesNotDistinct := by decide +kernel

theorem test_refuses_long_message : (Instr.kindReadReply 0 0 (List.replicate 250 0)).wf = false := by decide +kernel

theorem test_params_refused :
    (match Params.check { Config.paramSet with rxFifoDepth := 0 } with
      | .ok _ => none
      | .error e => some e) = some ParamProblem.rxFifoDepthZero := by decide +kernel

/-! ### Decode: every constructor, from a word or a frame the spec writes out (R83, R88; 42, 43, R99) -/

theorem test_decode_words :
    [0x00000001, 0x00000502, 0x00000003, 0x00000004, 0x00553410, 0x000CFF11, 0x00000520, 0x00000521, 0x00000522,
      0x00000523, 0x00000524, 0x00000025, 0x00000026, 0x00000530, 0x00000531, 0x00000532, 0x00000533].map decodeCmd =
    [.ok .checksum, .ok (.encode 0x05 0x00), .ok .decode, .ok .flush, .ok (.exchange 0x34 0x55),
      .ok (.send 0xFF 0x0C), .ok (.ping 0x05), .ok (.resetSoft 0x05), .ok (.resetHard 0x05), .ok (.sleep 0x05),
      .ok (.getInfo 0x05), .ok .sync, .ok .pingLatest, .ok (.read 0x05), .ok (.write 0x05), .ok (.readTyped 0x05),
      .ok (.writeTyped 0x05)] := by decide +kernel

/-- A frame under the default parameters. -/
def frame (bs : List Byte) : Except DecodeError Instr := Sys2Proof.decode Config.paramSet (.frame bs)

theorem test_decode_ping : frame [0x01, 0x06, 0x00, 0x05, 0x00, 0x57] = .ok (.kindPing 0x00 0x05 []) := by
  decide +kernel

theorem test_decode_ping_reply :
    frame [0x01, 0x08, 0x05, 0x00, 0x01, 0x01, 0x02, 0x0D] = .ok (.kindPingReply 0x05 0x00 [0x01, 0x02]) := by
  decide +kernel

theorem test_decode_ack_ok : frame [0x01, 0x06, 0x05, 0x00, 0x02, 0xD8] = .ok (.kindAckOk 0x05 0x00 []) := by
  decide +kernel

theorem test_decode_ack_nok : frame [0x01, 0x06, 0x05, 0x00, 0x03, 0xDF] = .ok (.kindAckNok 0x05 0x00 []) := by
  decide +kernel

theorem test_decode_sleep :
    frame [0x01, 0x0A, 0x00, 0x05, 0x04, 0x20, 0xA1, 0x07, 0x00, 0x43] =
      .ok (.kindSleep 0x00 0x05 [0x20, 0xA1, 0x07, 0x00]) := by decide +kernel

theorem test_decode_reset_soft : frame [0x01, 0x06, 0x00, 0x05, 0x05, 0x4C] = .ok (.kindResetSoft 0x00 0x05 []) := by
  decide +kernel

theorem test_decode_reset_hard : frame [0x01, 0x06, 0x00, 0x05, 0x06, 0x45] = .ok (.kindResetHard 0x00 0x05 []) := by
  decide +kernel

theorem test_decode_read_reg :
    frame [0x01, 0x09, 0x00, 0x05, 0x07, 0x00, 0x01, 0x10, 0xCC] = .ok (.kindReadReg 0x00 0x05 [0x00, 0x01, 0x10]) := by
  decide +kernel

theorem test_decode_read_reply :
    frame [0x01, 0x07, 0x05, 0x00, 0x08, 0x03, 0xEF] = .ok (.kindReadReply 0x05 0x00 [0x03]) := by decide +kernel

theorem test_decode_write_reg :
    frame [0x01, 0x09, 0x00, 0x05, 0x09, 0x28, 0x00, 0x03, 0x76] =
      .ok (.kindWriteReg 0x00 0x05 [0x28, 0x00, 0x03]) := by decide +kernel

theorem test_decode_get_info : frame [0x01, 0x06, 0x00, 0x05, 0x0A, 0x61] = .ok (.kindGetInfo 0x00 0x05 []) := by
  decide +kernel

theorem test_decode_info_reply :
    frame [0x01, 0x08, 0x05, 0x00, 0x0B, 0xAA, 0xBB, 0x23] = .ok (.kindInfoReply 0x05 0x00 [0xAA, 0xBB]) := by
  decide +kernel

theorem test_decode_sync : frame [0x01, 0x06, 0x00, 0xFF, 0x0C, 0xE5] = .ok (.kindSync 0x00 0xFF []) := by
  decide +kernel

theorem test_decode_illegal : decodeCmd 0x00000534 = .error (.illegalCommand 0x34) := by decide +kernel

theorem test_table_word_kind : decodeTableWord 8 0x0C = some (.kindSync 0 0 []) := by decide +kernel

theorem test_table_word_command : decodeTableWord 32 0x00000533 = some (.writeTyped 0x05) := by decide +kernel

/-! ### One step of each command (the examples of its rule) -/

theorem test_checksum :
    record (exec .checksum (withBytes (idle 0x00050000 0) 0x100 [0x01, 0x06, 0x00, 0x05, 0x00])) =
      some (.ok, false, 0x00000057, 0) := by decide +kernel

theorem test_encode :
    (after (exec (.encode 0x05 0x00) (idle 0 0))).map (fun s => (s.result, s.readBytes 0x300 6)) =
      some (6, [0x01, 0x06, 0x00, 0x05, 0x00, 0x57]) := by decide +kernel

theorem test_encode_too_large : record (exec (.encode 0 0) (idle 0x00F90000 0)) = some (.payloadTooLarge, false, 0, 0) := by
  decide +kernel

theorem test_decode_command :
    record (exec .decode (withBytes (idle 0x00060000 0) 0x300 [0x01, 0x06, 0x05, 0x00, 0x02, 0xD8])) =
      some (.ok, false, 6, 0x00020005) := by decide +kernel

theorem test_decode_command_empty : record (exec .decode (idle 0 0)) = some (.messageIncomplete, false, 0, 0) := by
  decide +kernel

theorem test_flush :
    record (exec .flush { idle 0 0 with pb := [0x01, 0x06], fifo := [0x05, 0x00, 0x02, 0xD8] }) =
      some (.ok, false, 6, 0) := by decide +kernel

theorem test_exchange :
    sent (exec (.exchange 0x34 0x55) { withBytes (idle 0x00020000 0) 0x100 [0xDE, 0xAD] with cfg := 0x12 }) =
      some [0x01, 0x08, 0x12, 0x34, 0x55, 0xDE, 0xAD, 0x55] := by decide +kernel

theorem test_send : sent (exec (.send 0xFF 0x0C) (idle 0 0)) = some [0x01, 0x06, 0x00, 0xFF, 0x0C, 0xE5] := by
  decide +kernel

theorem test_ping : sent (exec (.ping 0x05) (idle 0 0)) = some [0x01, 0x06, 0x00, 0x05, 0x00, 0x57] := by
  decide +kernel

theorem test_reset_soft : sent (exec (.resetSoft 0x05) (idle 0 0)) = some [0x01, 0x06, 0x00, 0x05, 0x05, 0x4C] := by
  decide +kernel

theorem test_reset_hard : sent (exec (.resetHard 0x05) (idle 0 0)) = some [0x01, 0x06, 0x00, 0x05, 0x06, 0x45] := by
  decide +kernel

theorem test_sleep :
    sent (exec (.sleep 0x05) (idle 0 0x0007A120)) =
      some [0x01, 0x0A, 0x00, 0x05, 0x04, 0x20, 0xA1, 0x07, 0x00, 0x43] := by decide +kernel

theorem test_get_info : sent (exec (.getInfo 0x05) (idle 0 0)) = some [0x01, 0x06, 0x00, 0x05, 0x0A, 0x61] := by
  decide +kernel

theorem test_sync : sent (exec .sync (idle 0 0)) = some [0x01, 0x06, 0x00, 0xFF, 0x0C, 0xE5] := by decide +kernel

/-- The ping record of R184's example, against an expected version. -/
def pinged (cfg pingrec : Word) : State :=
  { idle 0 0 with cfg := cfg, pingrec := pingrec, status := { Status.reset with prValid := true } }

/-- R184's examples: the expected version is 1.2, then 1.3. -/
def versions : List (Option (ErrCode × Bool × Word × Word)) :=
  [record (exec .pingLatest (pinged 0x0201FF00 0x05050201)), record (exec .pingLatest (pinged 0x0301FF00 0x05050201))]

theorem test_ping_latest : versions = [some (.ok, false, 1, 0), some (.ok, false, 0, 0)] := by decide +kernel

theorem test_ping_latest_foreign :
    record (exec .pingLatest (pinged 0x0201FF00 0x05070201)) = some (.ok, false, 0, 0) := by decide +kernel

theorem test_read :
    sent (exec (.read 0x05) (idle 0x00010028 0)) = some [0x01, 0x09, 0x00, 0x05, 0x07, 0x28, 0x00, 0x01, 0xBC] := by
  decide +kernel

theorem test_read_range : record (exec (.read 0x05) (idle 0x0002FFFF 0)) = some (.badRequest, false, 0, 0) := by
  decide +kernel

theorem test_write :
    sent (exec (.write 0x05) (withBytes (idle 0x00030005 0) 0x100 [0xAA, 0xBB, 0xCC])) =
      some [0x01, 0x0B, 0x00, 0x05, 0x09, 0x05, 0x00, 0xAA, 0xBB, 0xCC, 0x7E] := by decide +kernel

theorem test_write_read_only :
    record (exec (.write 0x05) (idle 0x00040172 0)) = some (.writeErrorReadOnly, false, 0, 0) := by decide +kernel

theorem test_read_typed :
    sent (exec (.readTyped 0x05) (idle 0x04000000 0)) =
      some [0x01, 0x09, 0x00, 0x05, 0x07, 0x00, 0x01, 0x04, 0xA0] := by decide +kernel

theorem test_write_typed :
    sent (exec (.writeTyped 0x05) (idle 0x18000000 0x3F800000)) =
      some [0x01, 0x0C, 0x00, 0x05, 0x09, 0x50, 0x01, 0x00, 0x00, 0x80, 0x3F, 0x1A] := by decide +kernel

theorem test_write_typed_value :
    record (exec (.writeTyped 0x05) (idle 0x01000000 0x100)) = some (.badRequest, false, 0, 0) := by decide +kernel

/-! ### One step of each received kind -/

theorem test_kind_ping_reply :
    (after (exec (.kindPingReply 0x05 0x00 [0x01, 0x02]) { awaiting (.ping 0x05) with latency := 3 })).map
      (fun s => (s.pingrec, s.result, s.rxhdr, s.status.prValid)) = some (0x05050201, 3, 0x02010005, true) := by
  decide +kernel

theorem test_kind_ack_ok : record (exec (.kindAckOk 0x05 0x00 []) (awaiting .ack)) = some (.ok, false, 0, 0x00020005) := by
  decide +kernel

theorem test_kind_ack_ok_long :
    record (exec (.kindAckOk 0x05 0x00 [0x00]) (awaiting .ack)) = some (.unexpectedReply, false, 0, 0x01020005) := by
  decide +kernel

theorem test_kind_ack_nok : record (exec (.kindAckNok 0x05 0x00 []) (awaiting .ack)) = some (.ok, true, 0, 0x00030005) := by
  decide +kernel

theorem test_kind_read_reply :
    record (exec (.kindReadReply 0x05 0x00 [0x03]) (awaiting (.read 1))) = some (.ok, false, 1, 0x01080005) := by
  decide +kernel

theorem test_kind_read_reply_typed :
    record (exec (.kindReadReply 0x05 0x00 [0x00, 0x00, 0xC0, 0x3F])
      (awaiting (.typed (Config.floatReg "PV0" 256 false)))) = some (.ok, false, 0x3FC00000, 0x04080005) := by
  decide +kernel

theorem test_kind_info_reply :
    record (exec (.kindInfoReply 0x05 0x00 [0xAA, 0xBB]) (awaiting .info)) = some (.ok, false, 2, 0x020B0005) := by
  decide +kernel

theorem test_requests_answer_exchange :
    [record (exec (.kindPing 5 0 []) (awaiting .any)), record (exec (.kindSleep 5 0 []) (awaiting .any)),
      record (exec (.kindResetSoft 5 0 []) (awaiting .any)), record (exec (.kindResetHard 5 0 []) (awaiting .any)),
      record (exec (.kindReadReg 5 0 []) (awaiting .any)), record (exec (.kindWriteReg 5 0 []) (awaiting .any)),
      record (exec (.kindGetInfo 5 0 []) (awaiting .any)), record (exec (.kindSync 5 0 []) (awaiting .any))] =
    [some (.ok, false, 0, 0x00000005), some (.ok, false, 0, 0x00040005), some (.ok, false, 0, 0x00050005),
      some (.ok, false, 0, 0x00060005), some (.ok, false, 0, 0x00070005), some (.ok, false, 0, 0x00090005),
      some (.ok, false, 0, 0x000A0005), some (.ok, false, 0, 0x000C0005)] := by decide +kernel

/-- A kind without a name completes an EXCHANGE and is unexpected to an ACK check (R96, R163, R181). -/
theorem test_unnamed_kind :
    [record (runMessage { src := 5, dst := 0, kind := 0x42, m := [1] } (awaiting .any)),
      record (runMessage { src := 5, dst := 0, kind := 0x42, m := [] } (awaiting .ack))] =
    [some (.ok, false, 1, 0x01420005), some (.unexpectedReply, false, 0, 0x00420005)] := by decide +kernel

theorem test_kind_outside_receive_phase :
    (after (exec (.kindAckOk 0x05 0x00 []) (idle 0 0))).map (fun s => s.fifo) =
      some [0x01, 0x06, 0x05, 0x00, 0x02, 0xD8] := by decide +kernel

/-! ### The first instruction after Reset -/

theorem test_fetch_command :
    sent (step ((idle 0 0).withFetchWord 32 0x00000520)) = some [0x01, 0x06, 0x00, 0x05, 0x00, 0x57] := by
  decide +kernel

theorem test_fetch_kind : record (step (State.reset.withFetchWord 8 0x02)) = some (.ok, false, 0, 0x00020000) := by
  decide +kernel

/-! ### Witnesses: for each statement with hypotheses, concrete values that meet them, at the boundary of each clause -/

/-- `n` zero bytes. -/
def zeros (n : Nat) : List Byte := List.replicate n 0

/-- PING's frame from 0x00 to 0x05 (R99). -/
def pingFrame : List Byte := [0x01, 0x06, 0x00, 0x05, 0x00, 0x57]

/-- ACK_OK's frame from 0x05 to 0x00 (R99). -/
def ackFrame : List Byte := [0x01, 0x06, 0x05, 0x00, 0x02, 0xD8]

theorem witness_DecodeInvertsEncode :
    Config.paramSet.kindCodes.distinct = true ∧ (Instr.writeTyped 0xFF).wf = true ∧
      (Instr.kindReadReply 0xFF 0xFF (zeros 249)).wf = true := by decide +kernel

theorem witness_OpcodeMap :
    [0x00000001, 0xFFFFFF02, 0x03, 0x04, 0x10, 0x11, 0x20, 0x21, 0x22, 0x23, 0x24, 0x25, 0x26, 0x30, 0x31, 0x32,
      0xFFFFFF33].map (fun v : Word => v.extractLsb' 0 8) =
    [0x01, 0x02, 0x03, 0x04, 0x10, 0x11, 0x20, 0x21, 0x22, 0x23, 0x24, 0x25, 0x26, 0x30, 0x31, 0x32, 0x33] := by
  decide +kernel

theorem witness_OpcodeMap_illegal :
    ([0x00, 0x05, 0x0F, 0x12, 0x1F, 0x27, 0x2F, 0x34, 0xFFFFFFFF] : List Word).all (fun v =>
      decide (v.extractLsb' 0 8 ∉ ([0x01, 0x02, 0x03, 0x04, 0x10, 0x11, 0x20, 0x21, 0x22, 0x23, 0x24, 0x25, 0x26, 0x30,
        0x31, 0x32, 0x33] : List Byte))) = true := by decide +kernel

theorem witness_EncodeFunction : (zeros 248).length ≤ 248 ∧ 248 < (zeros 249).length := by decide +kernel

/-- One byte list for each clause of the check order. -/
theorem witness_DecodeCheckOrder :
    decodeFrame .crc8 [] = .error .messageIncomplete ∧ decodeFrame .crc8 [0x02] = .error .badSoh ∧
    decodeFrame .crc8 [0x01] = .error .messageIncomplete ∧ decodeFrame .crc8 [0x01, 0x05] = .error .badLen ∧
    decodeFrame .crc8 (pingFrame.take 5) = .error .messageIncomplete ∧
    decodeFrame .crc8 (pingFrame ++ [0x00]) = .error .badLen ∧
    decodeFrame .crc8 (pingFrame.set 5 0x58) = .error .checksumError ∧
    decodeFrame .crc8 pingFrame = .ok { src := 0x00, dst := 0x05, kind := 0x00, m := [] } := by decide +kernel

theorem witness_DecodeCheckOrder_conditions :
    pingFrame.getD 0 0 = 0x01 ∧ 6 ≤ pingFrame.length ∧ pingFrame.length = (pingFrame.getD 1 0).toNat ∧
    pingFrame.getD 5 0 = checksum .crc8 (pingFrame.take 5) ∧
    (pingFrame.set 5 0x58).getD 5 0 ≠ checksum .crc8 ((pingFrame.set 5 0x58).take 5) := by decide +kernel

theorem witness_CodecRoundTrip : (zeros 248).length ≤ 248 := by decide +kernel

theorem witness_PrefixLaw :
    encodeFrame .crc8 0x00 0x05 0x00 [] = .ok pingFrame ∧ 0 < pingFrame.length ∧ 5 < pingFrame.length := by
  decide +kernel

/-- A change of each byte: SOH, LEN down, LEN up, FROM, the checksum. -/
theorem witness_SingleByteChangeLaw :
    encodeFrame .crc8 0x00 0x05 0x00 [] = .ok pingFrame ∧ (0x00 : Byte) ≠ pingFrame.getD 0 0 ∧
    (0x05 : Byte) ≠ pingFrame.getD 1 0 ∧ (0x05 : Byte).toNat < pingFrame.length ∧
    (0x07 : Byte) ≠ pingFrame.getD 1 0 ∧ pingFrame.length < (0x07 : Byte).toNat ∧
    (0x01 : Byte) ≠ pingFrame.getD 2 0 ∧ (0x56 : Byte) ≠ pingFrame.getD 5 0 := by decide +kernel

theorem fresh_idle (arg0 arg1 : Word) : (idle arg0 arg1).Fresh := ⟨rfl, rfl, rfl⟩

theorem witness_ChecksumCommand : (idle 0 0).Fresh ∧ (0xFFFFFF01 : Word).extractLsb' 0 8 = 0x01 :=
  ⟨fresh_idle 0 0, by decide⟩

theorem witness_EncodeCommand :
    (idle 0x00F80000 0).Fresh ∧ (idle 0x00F80000 0).n ≤ 248 ∧ (idle 0x00F90000 0).Fresh ∧ 248 < (idle 0x00F90000 0).n :=
  ⟨fresh_idle _ _, by decide +kernel, fresh_idle _ _, by decide +kernel⟩

/-- A frame in FRAMEBUF, and no byte at all. -/
theorem witness_DecodeCommand :
    (withBytes (idle 0x00060000 0) 0x300 ackFrame).Fresh ∧
    decodeFrame .crc8 ((withBytes (idle 0x00060000 0) 0x300 ackFrame).readBytes 0x300 6) =
      .ok { src := 0x05, dst := 0x00, kind := 0x02, m := [] } ∧
    decodeFrame .crc8 ((idle 0 0).readBytes 0x300 (idle 0 0).n) = .error .messageIncomplete :=
  ⟨⟨rfl, rfl, rfl⟩, by decide +kernel, by decide +kernel⟩

theorem witness_FlushCommand :
    (idle 0 0).Fresh ∧ (idle 0 0).pb.length + (idle 0 0).fifo.length < 4294967296 := ⟨fresh_idle _ _, by decide⟩

theorem witness_PingLatestCommand : (idle 0 0).Fresh := fresh_idle 0 0

theorem witness_ExchangeAndSendCommands :
    (idle 0x00F80000 0).Fresh ∧ (idle 0x00F80000 0).n ≤ 248 ∧ (idle 0x00F90000 0).Fresh ∧ 248 < (idle 0x00F90000 0).n :=
  ⟨fresh_idle _ _, by decide +kernel, fresh_idle _ _, by decide +kernel⟩

theorem witness_ReadCommand : (idle 0x00F80000 0).Fresh := fresh_idle _ _

/-- Zero bytes; one too many; a range one past the end; a write that ends on UID's last byte; the largest write. -/
theorem witness_WriteCommand :
    (idle 0 0).Fresh ∧ (idle 0 0).n = 0 ∧ 246 < (idle 0x00F70000 0).n ∧
    (1 ≤ (idle 0x0001FFFF 0).n ∧ (idle 0x0001FFFF 0).offset + (idle 0x0001FFFF 0).n = 65536) ∧
    65536 < (idle 0x0002FFFF 0).offset + (idle 0x0002FFFF 0).n ∧
    ((idle 0x00010003 0).offset = 3 ∧
      ∃ d ∈ (idle 0x00010003 0).set.regmap, d.ro = true ∧ d.offset ≤ 3 ∧ 3 < d.offset + d.width) ∧
    ((idle 0x00F60400 0).n = 246 ∧ (idle 0x00F60400 0).offset = 1024 ∧
      ∀ d ∈ (idle 0x00F60400 0).set.regmap, d.ro = true → d.offset + d.width ≤ 1024) :=
  ⟨fresh_idle _ _, by decide +kernel, by decide +kernel, by decide +kernel, by decide +kernel, by decide +kernel,
    by decide +kernel⟩

theorem witness_ReadTypedCommand :
    (idle 0x24000000 0).Fresh ∧ (idle 0x24000000 0).set.regmap.length ≤ (idle 0x24000000 0).regid ∧
    ((idle 0x23000000 0).set.regmap[(idle 0x23000000 0).regid]?).isSome = true :=
  ⟨fresh_idle _ _, by decide +kernel, by decide +kernel⟩

/-- No such REGID; DEV_STATUS; DEV_ADDR with a value one too large and with the largest. -/
theorem witness_WriteTypedCommand :
    (idle 0x24000000 0).Fresh ∧ (idle 0x24000000 0).set.regmap.length ≤ (idle 0x24000000 0).regid ∧
    ((idle 0x21000000 0).set.regmap[(idle 0x21000000 0).regid]?).map (fun d => d.ro) = some true ∧
    ((idle 0x01000000 0x100).set.regmap[(idle 0x01000000 0x100).regid]?).map
      (fun d => (d.ro, d.type, d.width)) = some (false, .uint8, 1) ∧
    2 ^ (8 * 1) ≤ (idle 0x01000000 0x100).arg1.toNat ∧ (idle 0x01000000 0xFF).arg1.toNat < 2 ^ (8 * 1) :=
  ⟨fresh_idle _ _, by decide +kernel, by decide +kernel, by decide +kernel, by decide +kernel, by decide +kernel⟩

/-- A byte buffer one byte too wide to write, and the widest that can be written. -/
theorem witness_WriteTypedCommand_bytebuf :
    (idle247.Fresh ∧ idle247.set.regmap[idle247.regid]? = some (bytebuf 0 247 false) ∧
      (bytebuf 0 247 false).ro = false ∧ (bytebuf 0 247 false).type = .bytebuf ∧ 246 < (bytebuf 0 247 false).width) ∧
    (idle246.Fresh ∧ idle246.set.regmap[idle246.regid]? = some (bytebuf 0 246 false) ∧
      (bytebuf 0 246 false).width ≤ 246) :=
  ⟨⟨⟨rfl, rfl, rfl⟩, by decide +kernel, rfl, rfl, by decide⟩, ⟨rfl, rfl, rfl⟩, by decide +kernel, by decide⟩

theorem awaits_awaiting (c : ReplyCheck) : (awaiting c).Awaits c := ⟨rfl, rfl, rfl, rfl, rfl⟩

/-- A kind code that names no kind under the defaults: the last one no kind has, and the first after SYNC's. -/
theorem unnamed_kind (c : ReplyCheck) :
    (∀ k : Kind, (awaiting c).code k ≠ 0xFF) ∧ ∀ k : Kind, (awaiting c).code k ≠ 0x0D :=
  have h : ∀ k : Kind, State.reset.code k ≠ 0xFF ∧ State.reset.code k ≠ 0x0D := fun k => by cases k <;> decide
  ⟨fun k => (h k).1, fun k => (h k).2⟩

theorem witness_AnyReplyCompletesExchange :
    (awaiting .any).Awaits .any ∧ (zeros 249).length ≤ 249 ∧ ∀ k : Kind, (awaiting .any).code k ≠ 0xFF :=
  ⟨awaits_awaiting _, by decide +kernel, (unnamed_kind _).1⟩

theorem witness_AckCheck :
    (awaiting .ack).Awaits .ack ∧ ([] : List Byte).length ≤ 249 ∧ (zeros 249).length ≤ 249 ∧
    ∀ k : Kind, (awaiting .ack).code k ≠ 0x0D :=
  ⟨awaits_awaiting _, by decide, by decide +kernel, (unnamed_kind _).2⟩

theorem witness_PingCheck :
    (awaiting (.ping 0x05)).Awaits (.ping 0x05) ∧ ([0x01, 0x02] : List Byte).length ≤ 249 ∧
    (Instr.kindPingReply, Kind.pingReply) ∈ kindArms ∧ ¬(Kind.pingReply = .pingReply ∧ ([0x01] : List Byte).length = 2) ∧
    (Instr.kindAckNok, Kind.ackNok) ∈ kindArms ∧ ∀ k : Kind, (awaiting (.ping 0x05)).code k ≠ 0x0D :=
  ⟨awaits_awaiting _, by decide, by simp [kindArms], by decide, by simp [kindArms], (unnamed_kind _).2⟩

theorem witness_InfoCheck :
    (awaiting .info).Awaits .info ∧ (zeros 249).length ≤ 249 ∧ ∀ k : Kind, (awaiting .info).code k ≠ 0x0D :=
  ⟨awaits_awaiting _, by decide +kernel, (unnamed_kind _).2⟩

theorem witness_ReadCheck :
    (awaiting (.read 248)).Awaits (.read 248) ∧ (zeros 248).length ≤ 249 ∧
    ∀ k : Kind, (awaiting (.read 248)).code k ≠ 0x0D :=
  ⟨awaits_awaiting _, by decide +kernel, (unnamed_kind _).2⟩

theorem witness_TypedCheck :
    (awaiting (.typed (Config.floatReg "PV0" 256 false))).Awaits (.typed (Config.floatReg "PV0" 256 false)) ∧
    Config.floatReg "PV0" 256 false ∈ (awaiting .any).set.regmap ∧ (zeros 4).length ≤ 249 ∧
    ∀ k : Kind, (awaiting (.typed (Config.floatReg "PV0" 256 false))).code k ≠ 0x0D :=
  ⟨awaits_awaiting _, by decide +kernel, by decide +kernel, (unnamed_kind _).2⟩

theorem witness_MessageRecord : (zeros 249).length ≤ 249 := by decide +kernel

theorem witness_FrameOutsideReceivePhaseIsStored : (idle 0 0).status.phase.receiving = false := by decide

theorem witness_StepTakesOneEvent :
    State.reset.inputs = [] ∧ { State.reset with inputs := [.tick] }.inputs = Event.tick :: [] ∧
    (after (step { State.reset with inputs := [.tick] })).isSome = true := by decide +kernel

theorem witness_StepRunsCommand :
    { idle 0 0 with inputs := [.hostWrite 4 0x00C 0x520] }.inputs = Event.hostWrite 4 0x00C 0x520 :: [] ∧
    (idle 0 0).status.busy = false ∧ decodeCmd 0x520 = .ok (.ping 0x05) := by decide +kernel

theorem witness_StepRunsReceivedFrame :
    { lastByte .ack (ackFrame.take 5) with inputs := [.rxByte 0xD8] }.inputs = Event.rxByte 0xD8 :: [] ∧
    (lastByte .ack (ackFrame.take 5)).status.phase = .awaitChecksum ∧ (lastByte .ack (ackFrame.take 5)).pb = [] ∧
    (lastByte .ack (ackFrame.take 5)).fifo = [] ∧
    Sys2Proof.decode (lastByte .ack (ackFrame.take 5)).set (.frame ((lastByte .ack (ackFrame.take 5)).cbuf ++ [0xD8])) =
      .ok (.kindAckOk 0x05 0x00 []) := by decide +kernel

/-- A byte in each phase after which nothing is delivered, the last a wrong checksum; the byte that delivers; a FIFO with
room and a full one. -/
theorem witness_ReceivedByteRunsParser :
    [awaiting .any, parsing .awaitHeader [0x01], parsing .awaitPayload (ackFrame.take 4),
      parsing .awaitChecksum (ackFrame.take 5)].map
      (fun s => (s.status.phase, s.status.phase.receiving, (s.pushRx 0x20).runParser.2)) =
      [(.awaitSoh, true, none), (.awaitHeader, true, none), (.awaitPayload, true, none),
        (.awaitChecksum, true, none)] ∧
    ((parsing .awaitChecksum (ackFrame.take 5)).pushRx 0xD8).runParser.2 =
      some { src := 0x05, dst := 0x00, kind := 0x02, m := [] } ∧
    { idle 0 0 with fifo := zeros 511 }.fifo.length < (idle 0 0).set.rxFifoDepth ∧
    (idle 0 0).set.rxFifoDepth ≤ { idle 0 0 with fifo := zeros 512 }.fifo.length := by decide +kernel

theorem witness_IllegalCommand :
    (idle 0 0).status.busy = false ∧
    (0x534 : Word).extractLsb' 0 8 ∉ ([0x01, 0x02, 0x03, 0x04, 0x10, 0x11, 0x20, 0x21, 0x22, 0x23, 0x24, 0x25, 0x26,
      0x30, 0x31, 0x32, 0x33] : List Byte) := by decide +kernel

theorem witness_HostReads :
    (idle 0 0).pb.length + (idle 0 0).fifo.length < 65536 ∧
    ([0x100, 0x3FC] : List (BitVec 12)).all (fun a =>
      decide (a.toNat % 4 = 0 ∧ 0x100 ≤ a.toNat ∧ a.toNat < 0x400)) = true ∧
    ([0x030, 0x0FC, 0x500, 0xFFC] : List (BitVec 12)).all (fun a =>
      decide (a.toNat % 4 = 0 ∧ 0x030 ≤ a.toNat ∧ (a.toNat < 0x100 ∨ 0x500 ≤ a.toNat))) = true := by decide +kernel

theorem witness_DescriptorWindow :
    (idle 0 0).set.regmap.length ≤ 36 ∧ 36 < 64 ∧ ((idle 0 0).set.regmap[0]?).isSome = true ∧
    ((idle 0 0).set.regmap[35]?).isSome = true := by decide +kernel

theorem witness_HostWriteRegisters : (idle 0 0).status.busy = false := by decide

theorem witness_HostWriteBuffersIdle :
    (idle 0 0).status.busy = false ∧
    ([0x100, 0x1FC, 0x300, 0x3FC] : List (BitVec 12)).all (fun a =>
      decide (a.toNat % 4 = 0 ∧
        ((0x100 ≤ a.toNat ∧ a.toNat < 0x200) ∨ (0x300 ≤ a.toNat ∧ a.toNat < 0x400)))) = true := by decide +kernel

theorem witness_HostWriteIgnored :
    ([0x01C, 0x0FC, 0x200, 0x2FC, 0x400, 0xFFC] : List (BitVec 12)).all (fun a =>
      decide (a.toNat % 4 = 0 ∧
        ((0x01C ≤ a.toNat ∧ a.toNat < 0x100) ∨ (0x200 ≤ a.toNat ∧ a.toNat < 0x300) ∨ 0x400 ≤ a.toNat))) = true := by
  decide +kernel

theorem witness_HostWritesWhileBusy :
    (awaiting .any).status.busy = true ∧
    ([0x004, 0x014, 0x100, 0x1FC, 0x300, 0x3FC] : List (BitVec 12)).all (fun a =>
      decide (a.toNat % 4 = 0 ∧ (a ∈ ([0x004, 0x008, 0x010, 0x014] : List (BitVec 12)) ∨
        (0x100 ≤ a.toNat ∧ a.toNat < 0x200) ∨ (0x300 ≤ a.toNat ∧ a.toNat < 0x400)))) = true := by decide +kernel

theorem witness_EnabledEventsHaveAStep :
    Event.enabled .txTake (transmitting [0x57] none 2) = true ∧ Event.enabled (.hostRead 4 0xFFC) (idle 0 0) = true ∧
    (2 ≠ 4 ∨ (0x000 : BitVec 12).toNat % 4 ≠ 0) ∧ (4 ≠ 4 ∨ (0x001 : BitVec 12).toNat % 4 ≠ 0) ∧
    (idle 0 0).txq = [] := by decide +kernel

theorem witness_ByteOutsideReceivePhase :
    (idle 0 0).status.phase = .idle ∧ (transmitting [0x57] none 2).status.phase = .tx ∧
    (idle 0 0).fifo.length < (idle 0 0).set.rxFifoDepth ∧
    (idle 0 0).set.rxFifoDepth ≤ { idle 0 0 with fifo := zeros 512 }.fifo.length := by decide +kernel

/-- The candidates of the clauses: no SOH yet; LEN next; DST next; FROM next; payload; the last payload byte; checksum. -/
theorem witness_ParserByte :
    (awaiting .any).status.phase = .awaitSoh ∧
    ({ awaiting .any with cbuf := [0x01], status := { Status.reset with phase := .awaitHeader } }.cbuf.length = 1 ∧
      (0x05 : Byte).toNat < 6 ∧ 6 ≤ (0x06 : Byte).toNat) ∧
    ([0x01, 0x07] : List Byte).length = 2 ∧ ([0x01, 0x07, 0x05] : List Byte).length = 3 ∧
    ([0x01, 0x07, 0x05, 0x00] : List Byte).length + 2 < (([0x01, 0x07, 0x05, 0x00] : List Byte).getD 1 0).toNat ∧
    ([0x01, 0x06, 0x05, 0x00] : List Byte).length + 2 = (([0x01, 0x06, 0x05, 0x00] : List Byte).getD 1 0).toNat ∧
    (lastByte .any (ackFrame.take 5)).status.phase = .awaitChecksum ∧
    (0xD8 : Byte) = checksum (lastByte .any (ackFrame.take 5)).set.chkAlg (lastByte .any (ackFrame.take 5)).cbuf ∧
    (0xD9 : Byte) ≠ checksum (lastByte .any (ackFrame.take 5)).set.chkAlg (lastByte .any (ackFrame.take 5)).cbuf := by
  decide +kernel

/-- Nothing queued; two bytes; the last byte with no reply awaited; the last byte of a request, with a deadline of 1 and of
0. -/
theorem witness_TransmitByte :
    (idle 0 0).txq = [] ∧ (transmitting [0x00, 0x57] none 1).txq = 0x00 :: [0x57] ∧
    (transmitting [0x57] none 1).txq = [0x57] ∧ (transmitting [0x57] none 1).ctx = none ∧
    (transmitting [0x57] (some .any) 1).ctx = some .any ∧ (transmitting [0x57] (some .any) 1).pb = [] ∧
    (transmitting [0x57] (some .any) 1).fifo = [] ∧ (transmitting [0x57] (some .any) 1).timeout ≠ 0 ∧
    (transmitting [0x57] (some .any) 0).timeout = 0 ∧ (transmitting [0x57] (some .any) 0).status.busy = true := by
  decide +kernel

/-- At the end of a request: a whole frame received already, with a deadline of 0; the first two bytes of one, which leave
the parser mid-frame; noise, which leaves it in AWAIT_SOH. -/
theorem witness_TransmitByte_received :
    [ackFrame, ackFrame.take 2, [0x20]].map (fun fifo =>
      (fun r => (r.2, r.1.status.phase)) (State.runParser
        { transmitting [0x57] (some .any) 0 with
          txq := []
          tmr := 0
          status := { Status.reset with busy := true, phase := .awaitSoh }
          fifo := fifo
          outputs := [.txByte 0x57] })) =
    [(some { src := 0x05, dst := 0x00, kind := 0x02, m := [] }, .awaitChecksum), (none, .awaitHeader),
      (none, .awaitSoh)] := by decide +kernel

/-- Idle; TX; two ticks to go; the last tick in AWAIT_SOH and mid-frame. -/
theorem witness_TickCounts :
    ((idle 0 0).status.busy = false ∧ (idle 0 0).status.phase = .idle) ∧
    ((transmitting [0x57] none 1).status.busy = true ∧ (transmitting [0x57] none 1).status.phase = .tx) ∧
    ((awaiting .any).status.busy = true ∧ 2 ≤ { awaiting .any with tmr := 2 }.tmr.toNat) ∧
    ((awaiting .any).status.phase = .awaitSoh ∧ { awaiting .any with tmr := 1 }.tmr = 1) ∧
    ((lastByte .any []).status.busy = true ∧ (lastByte .any []).status.phase.receiving = true ∧
      (lastByte .any []).status.phase ≠ .awaitSoh) := by decide +kernel

/-- Nothing to parse; a byte in `PB` that delivers nothing; a byte in `FIFO` that delivers. -/
theorem witness_ParserStops :
    (awaiting .any).status.phase.receiving = true ∧ (awaiting .any).pb = [] ∧ (awaiting .any).fifo = [] ∧
    (awaiting .any).runParser.2 = none ∧ { awaiting .any with pb := [0x20] }.pb = 0x20 :: [] ∧
    ((awaiting .any).parseByte 0x20).2 = none ∧ { parsing .awaitChecksum (ackFrame.take 5) with fifo := [0xD8] }.pb = [] ∧
    ((parsing .awaitChecksum (ackFrame.take 5)).parseByte 0xD8).2.isSome = true := by decide +kernel

theorem witness_ParserDeliversOnlyFrames :
    (lastByte .any (ackFrame.take 5)).candidateOk ∧
    ({ lastByte .any (ackFrame.take 5) with fifo := [0xD8] }.runParser.2).isSome = true :=
  ⟨⟨rfl, by decide, by decide⟩, by decide +kernel⟩

/-- A frame behind noise, which is delivered; and one behind an SOH whose LEN reaches past it, which is not. -/
theorem witness_ResyncInvariant :
    (awaiting .any).status.phase = .awaitSoh ∧ (awaiting .any).cbuf = [] ∧
    decodeFrame (awaiting .any).set.chkAlg ackFrame = .ok { src := 0x05, dst := 0x00, kind := 0x02, m := [] } ∧
    { awaiting .any with fifo := [0x20] ++ ackFrame ++ [] }.runParser.2 =
      some { src := 0x05, dst := 0x00, kind := 0x02, m := [] } ∧
    { awaiting .any with fifo := [0x01, 0x20] ++ ackFrame ++ [] }.runParser.2 = none := by decide +kernel

theorem inv_awaiting (c : ReplyCheck) : (awaiting c).Inv where
  memory := rfl
  busy_phase := by simp [awaiting]
  txq_phase := by simp [awaiting, State.reset, State.resetFor]
  txq_bound := by simp [awaiting, State.reset, State.resetFor]
  fifo_bound := by simp [awaiting, State.reset, State.resetFor]
  pb_bound := by simp [awaiting, State.reset, State.resetFor]
  candidate := rfl
  receive := fun _ => ⟨rfl, rfl, by simp [awaiting], rfl⟩
  idle_ctx := by simp [awaiting]
  running := fun _ => ⟨rfl, rfl, rfl, rfl, rfl⟩
  error := by simp [awaiting, Status.reset]
  interrupt := rfl

theorem witness_StepKeepsInvariant :
    (awaiting .any).Inv ∧ (after (step (awaiting .any))).isSome = true := ⟨inv_awaiting _, by decide +kernel⟩

theorem inv_transmitting (c : ReplyCheck) (timeout : Word) : (transmitting [0x57] (some c) timeout).Inv where
  memory := rfl
  busy_phase := by simp [transmitting]
  txq_phase := by simp [transmitting]
  txq_bound := by simp [transmitting]
  fifo_bound := by simp [transmitting, State.reset, State.resetFor]
  pb_bound := by simp [transmitting, State.reset, State.resetFor]
  candidate := rfl
  receive := fun h => by simp [transmitting, Phase.receiving] at h
  idle_ctx := by simp [transmitting]
  running := fun _ => ⟨rfl, rfl, rfl, rfl, rfl⟩
  error := by simp [transmitting, Status.reset]
  interrupt := rfl

/-- A deadline of two ticks with a byte and a host write between them; a deadline of none. -/
theorem witness_DeadlineEndsCommand :
    (transmitting [0x57] (some .any) 2).Inv ∧ (transmitting [0x57] (some .any) 2).txq = [0x57] ∧
    (transmitting [0x57] (some .any) 2).ctx = some .any ∧
    (∀ e ∈ [Event.tick, .rxByte 0x01, .hostWrite 4 0x008 9, .tick],
      e ≠ .reset ∧ e ≠ .txTake ∧ e.enabled (transmitting [0x57] (some .any) 2) = true) ∧
    (transmitting [0x57] (some .any) 2).timeout.toNat ≤
      [Event.tick, .rxByte 0x01, .hostWrite 4 0x008 9, .tick].count .tick ∧
    (transmitting [0x57] (some .any) 0).Inv ∧ (transmitting [0x57] (some .any) 0).timeout.toNat ≤
      ([] : List Event).count .tick :=
  ⟨inv_transmitting _ _, rfl, rfl, by decide +kernel, by decide +kernel, inv_transmitting _ _, by decide +kernel⟩

theorem witness_NoCancellation :
    (awaiting .any).status.busy = true ∧ (awaiting .any).status.done = false ∧
    (after (handle (.hostWrite 4 0x00C 0x520) (awaiting .any))).isSome = true ∧
    (after (handle (.hostRead 4 0x018) (awaiting .any))).isSome = true := by decide +kernel

theorem witness_OperandsAreTheHosts :
    (after (handle .tick (awaiting .any))).isSome = true ∧ (∀ size a v, Event.tick ≠ .hostWrite size a v) ∧
    Event.tick ≠ .reset ∧ (after (exec .flush (idle 0 0))).isSome = true :=
  ⟨by decide +kernel, fun _ _ _ h => by simp at h, by decide, by decide +kernel⟩

theorem witness_BufferOwnership :
    (after (exec (.encode 0x05 0x00) (idle 0 0))).isSome = true ∧ (after (exec .flush (idle 0 0))).isSome = true ∧
    (∀ dst kind, Instr.flush ≠ .encode dst kind) ∧ Instr.flush ≠ .decode ∧
    (∀ k src dst m, Instr.flush ≠ instrOfKind k src dst m) :=
  ⟨by decide +kernel, by decide +kernel, fun _ _ h => by simp at h, by decide,
    fun k _ _ _ h => by cases k <;> simp [instrOfKind] at h⟩

/-- The last byte of R182's reply changes PINGREC; the PING command waits for its check. -/
theorem witness_OnlyPingWritesTheRecord :
    (after (handle (.rxByte 0x0D) (lastByte (.ping 0x05) [0x01, 0x08, 0x05, 0x00, 0x01, 0x01, 0x02]))).map
      (fun t => t.pingrec) = some 0x05050201 ∧
    (after (exec (.ping 0x05) (idle 0 0))).map (fun t => t.ctx) = some (some (.ping 0x05)) := by decide +kernel

/-- A CMD write whose command ends within it, and one whose command goes on; a state that has completed, whose DONE a W1C
write clears; and a command that ends at its deadline. -/
theorem witness_DoneFlag :
    ([0x00000026, 0x00000520] : List Word).map (fun v =>
      (after (handle (.hostWrite 4 0x00C v) (idle 0 0))).map (fun t => (t.status.busy, t.status.done))) =
      [some (false, true), some (true, false)] ∧ (idle 0 0).status.busy = false ∧
    (after (handle (.hostWrite 4 0x018 0x2) { idle 0 0 with status := { Status.reset with done := true } })).map
      (fun t => t.status.done) = some false ∧
    (after (handle .tick { awaiting .any with tmr := 1 })).map (fun t => (t.status.busy, t.status.done)) =
      some (false, true) := by decide +kernel

/-- W1C writes that clear each sticky flag, and writes while BUSY that set CMDERR and WERR. -/
theorem witness_StickyFlags :
    (after (handle (.hostWrite 4 0x018 0xE0)
      { idle 0 0 with status := { Status.reset with ovr := true, cmderr := true, werr := true } })).map
      (fun t => (t.status.ovr, t.status.cmderr, t.status.werr)) = some (false, false, false) ∧
    (after (handle (.hostWrite 4 0x00C 0) (awaiting .any))).map (fun t => t.status.cmderr) = some true ∧
    (after (handle (.hostWrite 4 0x004 0) (awaiting .any))).map (fun t => t.status.werr) = some true := by
  decide +kernel

end Sys2Proof.Tests
end

section
/-! PROOFS. STATUS.DONE (10_state.md R36): what BUSY and DONE can do in a command's rule and in an event. -/

namespace Sys2Proof.Machine

/-! ### Running on, or completing -/

/-- From `s` to `t` the engine has left BUSY and DONE alone, or a command has completed: the two things any part of the
engine can do to them but acceptance, a W1C write and Reset (R36, R243). -/
def KeepsOrCompletes (s t : State) : Prop :=
  (t.status.busy = s.status.busy ∧ t.status.done = s.status.done) ∨ (t.status.busy = false ∧ t.status.done = true)

theorem KeepsOrCompletes.refl (s : State) : KeepsOrCompletes s s := .inl ⟨rfl, rfl⟩

theorem KeepsOrCompletes.trans {s t u : State} (hst : KeepsOrCompletes s t) (htu : KeepsOrCompletes t u) :
    KeepsOrCompletes s u := by
  obtain ⟨hbusy, hdone⟩ | hends := htu
  · unfold KeepsOrCompletes
    rw [hbusy, hdone]
    exact hst
  · exact .inr hends

/-- IRQ is no part of STATUS: its level may be recomputed (R58). -/
theorem KeepsOrCompletes.recomputeIrq {s t : State} (h : KeepsOrCompletes s t) : KeepsOrCompletes s t.recomputeIrq := h

/-- A completion completes, whatever the state was (R243). -/
theorem keepsOrCompletes_ended (s u : State) (e : ErrCode) (nok : Bool) (r : Word) :
    KeepsOrCompletes s (u.ended e nok r) := .inr ⟨rfl, rfl⟩

/-- So does the raise of an error (R241). -/
theorem keepsOrCompletes_raise (s u : State) (e : ErrCode) : KeepsOrCompletes s (u.raise e) := .inr ⟨rfl, rfl⟩

theorem keepsOrCompletes_exchange (s : State) (dst kind : Byte) (m : List Byte) (c : ReplyCheck) :
    KeepsOrCompletes s (s.exchange dst kind m c) := by
  obtain ⟨_, h⟩ | ⟨_, h⟩ := exchange_cases s dst kind m c <;> rw [h]
  · exact .inl ⟨rfl, rfl⟩
  · exact keepsOrCompletes_raise _ _ _

theorem keepsOrCompletes_sendOnly (s : State) (dst kind : Byte) (m : List Byte) :
    KeepsOrCompletes s (s.sendOnly dst kind m) := by
  obtain ⟨_, h⟩ | ⟨_, h⟩ := sendOnly_cases s dst kind m <;> rw [h]
  · exact .inl ⟨rfl, rfl⟩
  · exact keepsOrCompletes_raise _ _ _

/-! ### Reception -/

theorem keepsOrCompletes_pushRx (s : State) (b : Byte) : KeepsOrCompletes s (s.pushRx b) := by
  obtain ⟨_, h⟩ | ⟨_, h⟩ := pushRx_cases s b <;> rw [h] <;> exact .inl ⟨rfl, rfl⟩

theorem keepsOrCompletes_pushRxAll (s : State) (bs : List Byte) : KeepsOrCompletes s (s.pushRxAll bs) := by
  induction bs generalizing s with
  | nil => exact .refl s
  | cons b bs ih => exact (keepsOrCompletes_pushRx s b).trans (ih _)

/-- A delivery always completes: every reply check ends the command (R157, R180). -/
theorem keepsOrCompletes_deliver (s u : State) (c : ReplyCheck) (msg : Message) :
    KeepsOrCompletes s (u.deliver c msg) := by
  unfold State.deliver
  obtain ⟨r, g, v, h⟩ | h | h := run_cases c msg (u.recordMessage msg) <;> rw [h] <;>
    exact keepsOrCompletes_ended _ _ _ _ _

theorem keepsOrCompletes_receiveMessage (s : State) (msg : Message) : KeepsOrCompletes s (s.receiveMessage msg) := by
  unfold State.receiveMessage
  split
  · split
    · exact keepsOrCompletes_deliver _ _ _ _
    · exact keepsOrCompletes_pushRxAll _ _
  · exact keepsOrCompletes_pushRxAll _ _

/-! ### Every instruction -/

/-- WRITE_TYPED ends in one of its three pre-flight errors, or exchanges (R219). -/
theorem execWriteTyped_keepsOrCompletes {s t : State} {dst : Byte} (h : execWriteTyped dst s = .next t) :
    KeepsOrCompletes s t := by
  unfold execWriteTyped at h
  split at h
  · cases h
    exact keepsOrCompletes_raise _ _ _
  · split at h
    · cases h
      exact keepsOrCompletes_raise _ _ _
    · split at h <;> cases h
      · exact keepsOrCompletes_raise _ _ _
      · exact keepsOrCompletes_exchange _ _ _ _ _

/-- No instruction's meaning touches BUSY or DONE but by completing. -/
theorem exec_keepsOrCompletes {i : Instr} {s t : State} (h : exec i s = .next t) : KeepsOrCompletes s t := by
  cases i with
  | encode | decode =>
    simp only [exec, execEncode, execDecode] at h
    split at h <;> cases h <;> exact .inr ⟨rfl, rfl⟩
  | read | write | readTyped =>
    simp only [exec, execRead, execWrite, execReadTyped] at h
    split at h <;> cases h
    · exact keepsOrCompletes_raise _ _ _
    · exact keepsOrCompletes_exchange _ _ _ _ _
  | writeTyped dst => exact execWriteTyped_keepsOrCompletes h
  | checksum | flush | pingLatest => cases h; exact .inr ⟨rfl, rfl⟩
  | send | sync => cases h; exact keepsOrCompletes_sendOnly _ _ _ _
  | exchange | ping | resetSoft | resetHard | sleep | getInfo =>
    cases h; exact keepsOrCompletes_exchange _ _ _ _ _
  | _ => cases h; exact keepsOrCompletes_receiveMessage _ _

/-! ### The parser, the transmitter and time -/

theorem keepsOrCompletes_parseByte (s : State) (b : Byte) : KeepsOrCompletes s (s.parseByte b).1 := by
  rw [parseByte_frame]
  exact .inl ⟨rfl, rfl⟩

theorem keepsOrCompletes_nextByte {s t : State} {b : Byte} (h : s.nextByte = some (b, t)) : KeepsOrCompletes s t := by
  obtain ⟨_, _, _, hn⟩ | ⟨_, _, _, _, hn⟩ | ⟨_, _, hn⟩ := nextByte_cases s <;> rw [hn] at h <;> cases h <;>
    exact .inl ⟨rfl, rfl⟩

theorem keepsOrCompletes_parse (fuel : Nat) (s : State) : KeepsOrCompletes s (State.parse fuel s).1 := by
  induction fuel generalizing s with
  | zero => exact .refl s
  | succ fuel ih =>
    rw [parse_succ]
    split
    · split
      · exact .refl s
      · next b t hnext =>
        have hbyte := (keepsOrCompletes_nextByte hnext).trans (keepsOrCompletes_parseByte t b)
        split
        · next u msg hu => rwa [hu] at hbyte
        · next u hu =>
          rw [hu] at hbyte
          exact hbyte.trans (ih u)
    · exact .refl s

theorem parseAndDeliver_keepsOrCompletes {s t : State} (h : parseAndDeliver s = .next t) : KeepsOrCompletes s t := by
  have hparse : KeepsOrCompletes s s.runParser.1 := keepsOrCompletes_parse _ s
  unfold parseAndDeliver at h
  split at h
  · next u hu =>
    cases h
    rwa [hu] at hparse
  · next u msg hu =>
    rw [runMessage_eq] at h
    cases h
    rw [hu] at hparse
    exact hparse.trans (keepsOrCompletes_receiveMessage u msg)

theorem rxByte_keepsOrCompletes {b : Byte} {s t : State} (h : rxByte b s = .next t) : KeepsOrCompletes s t := by
  have hpush := keepsOrCompletes_pushRx s b
  unfold rxByte at h
  split at h
  · exact hpush.trans (parseAndDeliver_keepsOrCompletes h)
  · cases h
    exact hpush

theorem keepsOrCompletes_expire (s u : State) : KeepsOrCompletes s u.expire := by
  obtain ⟨_, h⟩ | ⟨_, h⟩ := expire_cases u <;> rw [h] <;> exact keepsOrCompletes_ended _ _ _ _ _

theorem keepsOrCompletes_expireIfZero (s : State) : KeepsOrCompletes s s.expireIfZero := by
  unfold State.expireIfZero
  split
  · exact keepsOrCompletes_expire _ _
  · exact .refl s

theorem afterLastByte_keepsOrCompletes {s t : State} (h : afterLastByte s = .next t) : KeepsOrCompletes s t := by
  unfold afterLastByte at h
  split at h
  · obtain ⟨u, hu, rfl⟩ := onNext_eq_next h
    have hstart : KeepsOrCompletes s s.startReceive := .inl ⟨rfl, rfl⟩
    exact (hstart.trans (parseAndDeliver_keepsOrCompletes hu)).trans (keepsOrCompletes_expireIfZero u)
  · cases h
    exact .inr ⟨rfl, rfl⟩

theorem txTake_keepsOrCompletes {s t : State} (h : txTake s = .next t) : KeepsOrCompletes s t := by
  unfold txTake at h
  split at h
  · cases h
  · next b rest _ =>
    have htaken : KeepsOrCompletes s { s with txq := rest, outputs := s.outputs ++ [.txByte b] } := .inl ⟨rfl, rfl⟩
    split at h
    · exact htaken.trans (afterLastByte_keepsOrCompletes h)
    · cases h
      exact htaken

theorem keepsOrCompletes_countLatency (s : State) : KeepsOrCompletes s s.countLatency := by
  unfold State.countLatency
  split <;> exact .inl ⟨rfl, rfl⟩

theorem keepsOrCompletes_countDown (s : State) : KeepsOrCompletes s s.countDown := by
  unfold State.countDown
  split
  · dsimp only
    split
    · exact keepsOrCompletes_expire _ _
    · exact .inl ⟨rfl, rfl⟩
  · exact .refl s

theorem tick_keepsOrCompletes {s t : State} (h : tick s = .next t) : KeepsOrCompletes s t := by
  cases h
  exact (keepsOrCompletes_countLatency s).trans (keepsOrCompletes_countDown _)

/-! ### Host writes -/

/-- The one word address that leads to CMD (R27). -/
theorem addr_of_placeOf_cmd {a : BitVec 12} (haligned : a.toNat % 4 = 0) (h : placeOf a = .cmd) : a = 0x00C := by
  have hrange : 0x00C ≤ a.toNat ∧ a.toNat < 0x010 := by grind [placeOf]
  exact BitVec.eq_of_toNat_eq (by simp; omega)

/-- The one word address that leads to STATUS (R27). -/
theorem addr_of_placeOf_status {a : BitVec 12} (haligned : a.toNat % 4 = 0) (h : placeOf a = .status) : a = 0x018 := by
  have hrange : 0x018 ≤ a.toNat ∧ a.toNat < 0x01C := by grind [placeOf]
  exact BitVec.eq_of_toNat_eq (by simp; omega)

/-- A protected write keeps what the write itself keeps (R160). -/
theorem keepsOrCompletes_protect {s w : State} (h : KeepsOrCompletes s w) : KeepsOrCompletes s (s.protect w) := by
  obtain ⟨_, hp⟩ | ⟨_, hp⟩ := protect_cases s w <;> rw [hp]
  · exact .inl ⟨rfl, rfl⟩
  · exact h

/-- Acceptance sets BUSY and clears DONE; the command's rule then leaves them so, or completes (R36, R158). -/
theorem writeCmd_idle {v : Word} {s t : State} (hidle : s.status.busy = false) (h : writeCmd v s = .next t) :
    KeepsOrCompletes (s.accepted v) t := by
  obtain ⟨hbusy, _⟩ | ⟨_, i, _, hw⟩ | ⟨_, e, _, hw⟩ := writeCmd_cases v s
  · simp [hidle] at hbusy
  · exact exec_keepsOrCompletes (hw ▸ h)
  · rw [hw] at h
    cases h
    exact keepsOrCompletes_ended _ _ _ _ _

/-- A write to CMD while BUSY starts nothing (R159). -/
theorem writeCmd_busy {v : Word} {s t : State} (hbusy : s.status.busy = true) (h : writeCmd v s = .next t) :
    KeepsOrCompletes s t := by
  obtain ⟨_, hw⟩ | ⟨hidle, _⟩ | ⟨hidle, _⟩ := writeCmd_cases v s
  · rw [hw] at h
    cases h
    exact .inl ⟨rfl, rfl⟩
  · simp [hbusy] at hidle
  · simp [hbusy] at hidle

/-- A write to any place but CMD and STATUS leaves BUSY and DONE alone (R66). -/
theorem writePlace_keepsOrCompletes {p : Place} {v : Word} {s t : State} (hcmd : p ≠ .cmd) (hstatus : p ≠ .status)
    (h : writePlace p v s = .next t) : KeepsOrCompletes s t := by
  cases p with
  | cmd => exact absurd rfl hcmd
  | status => exact absurd rfl hstatus
  | cfg | timeout | arg0 | arg1 => cases h; exact keepsOrCompletes_protect (.inl ⟨rfl, rfl⟩)
  | buffer buf index =>
    cases buf with
    | rxbuf => cases h; exact .refl s
    | txbuf | framebuf => cases h; exact keepsOrCompletes_protect (.inl ⟨rfl, rfl⟩)
  | _ => cases h; exact .inl ⟨rfl, rfl⟩

/-! ### Every event -/

/-- Everything a host write can do to BUSY and DONE: a W1C write to STATUS, an acceptance, or nothing but by completing
(R34, R36, R158). -/
theorem hostWrite_busy_done_cases {size : Nat} {a : BitVec 12} {v : Word} {s t : State}
    (h : hostWrite size a v s = .next t) :
    (size = 4 ∧ a = 0x018 ∧ t = { s with status := s.status.writeOneToClear v }) ∨
    (size = 4 ∧ a = 0x00C ∧ s.status.busy = false ∧ KeepsOrCompletes (s.accepted v) t) ∨
    KeepsOrCompletes s t := by
  unfold hostWrite at h
  split at h
  case isFalse => cases h
  case isTrue hok =>
    obtain ⟨hsize, haligned⟩ := (hostAccessOk_iff size a).mp hok
    by_cases hstatus : placeOf a = .status
    · rw [hstatus] at h
      cases h
      exact .inl ⟨hsize, addr_of_placeOf_status haligned hstatus, rfl⟩
    by_cases hcmd : placeOf a = .cmd
    · rw [hcmd] at h
      cases hbusy : s.status.busy with
      | false => exact .inr (.inl ⟨hsize, addr_of_placeOf_cmd haligned hcmd, rfl, writeCmd_idle hbusy h⟩)
      | true => exact .inr (.inr (writeCmd_busy hbusy h))
    · exact .inr (.inr (writePlace_keepsOrCompletes hcmd hstatus h))

/-- Everything an event can do to BUSY and DONE (R36). -/
theorem handle_busy_done_cases {e : Event} {s t : State} (h : handle e s = .next t) :
    e = .reset ∨
    (∃ v, e = .hostWrite 4 0x018 v ∧ t.status = s.status.writeOneToClear v) ∨
    (∃ v, e = .hostWrite 4 0x00C v ∧ s.status.busy = false ∧ KeepsOrCompletes (s.accepted v) t) ∨
    KeepsOrCompletes s t := by
  obtain ⟨u, hu, rfl⟩ := onNext_eq_next h
  cases e with
  | reset => exact .inl rfl
  | hostWrite size a v =>
    obtain ⟨rfl, rfl, rfl⟩ | ⟨rfl, rfl, hidle, hrun⟩ | hkeep := hostWrite_busy_done_cases hu
    · exact .inr (.inl ⟨v, rfl, rfl⟩)
    · exact .inr (.inr (.inl ⟨v, rfl, hidle, hrun.recomputeIrq⟩))
    · exact .inr (.inr (.inr hkeep.recomputeIrq))
  | hostRead size a =>
    simp only [respond, hostRead] at hu
    split at hu <;> cases hu
    exact .inr (.inr (.inr (.inl ⟨rfl, rfl⟩)))
  | rxByte b => exact .inr (.inr (.inr (rxByte_keepsOrCompletes hu).recomputeIrq))
  | txTake => exact .inr (.inr (.inr (txTake_keepsOrCompletes hu).recomputeIrq))
  | tick => exact .inr (.inr (.inr (tick_keepsOrCompletes hu).recomputeIrq))

/-- A CMD write while idle leaves DONE the opposite of BUSY: the command goes on, or has ended (R36). -/
theorem done_of_cmd_write {s t : State} {v : Word} (hidle : s.status.busy = false)
    (h : handle (.hostWrite 4 0x00C v) s = .next t) : t.status.done = !t.status.busy := by
  obtain ⟨u, hu, rfl⟩ := onNext_eq_next h
  rw [respond, hostWrite_ok (by decide), show placeOf 0x00C = .cmd from placeOf_cmd] at hu
  obtain ⟨hbusy, hdone⟩ | ⟨hbusy, hdone⟩ := writeCmd_idle hidle hu <;> simp [hbusy, hdone, State.accepted]

/-- Only Reset, a W1C write and an acceptance let DONE fall (R36). -/
theorem done_falls_only {s t : State} {e : Event} (h : handle e s = .next t) (hs : s.status.done = true)
    (ht : t.status.done = false) :
    e = .reset ∨ (∃ v : Word, e = .hostWrite 4 0x018 v ∧ v.getLsbD 1 = true) ∨
      (s.status.busy = false ∧ ∃ v : Word, e = .hostWrite 4 0x00C v) := by
  obtain hreset | ⟨v, he, hst⟩ | ⟨v, he, hidle, _⟩ | ⟨_, hdone⟩ | ⟨_, hdone⟩ := handle_busy_done_cases h
  · exact .inl hreset
  · rw [hst] at ht
    exact .inr (.inl ⟨v, he, by simpa [Status.writeOneToClear, hs] using ht⟩)
  · exact .inr (.inr ⟨hidle, v, he⟩)
  · simp [hdone, hs] at ht
  · simp [hdone] at ht

/-- BUSY falls only with a completion, which sets DONE, or at Reset (R36, R243). -/
theorem done_of_busy_falls {s t : State} {e : Event} (h : handle e s = .next t) (he : e ≠ .reset)
    (hs : s.status.busy = true) (ht : t.status.busy = false) : t.status.done = true := by
  obtain hreset | ⟨v, _, hst⟩ | ⟨v, _, hidle, _⟩ | ⟨hbusy, _⟩ | ⟨_, hdone⟩ := handle_busy_done_cases h
  · exact absurd hreset he
  · simp [hst, Status.writeOneToClear, hs] at ht
  · simp [hs] at hidle
  · simp [hbusy, hs] at ht
  · exact hdone

/-- Settles O59: by what each event can do to BUSY and DONE (`handle_busy_done_cases`). -/
theorem doneFlag : Obligations.DoneFlag := by
  refine ⟨fun _ _ => rfl, fun s t v hidle h => ?_, fun _ _ _ => done_falls_only, fun _ _ _ => done_of_busy_falls⟩
  have hdone := done_of_cmd_write hidle h
  exact ⟨fun hb => by rw [hdone, hb]; rfl, fun hb => by rw [hdone, hb]; rfl⟩

end Sys2Proof.Machine
end

section
/-! PROOFS. The host window (20_memory.md R60 to R65) and the events that have a step (R62, 41_transport.md R140): what a
read of each address answers, and that only a malformed access and an untimely `TxTake` are refused. -/

namespace Sys2Proof.Machine

/-! ### Little-endian words (R10, R63) -/

/-- A byte put below the bits of a word counts for itself, the word for 256 times its value. -/
theorem toNat_append_byte {n : Nat} (hi : BitVec n) (lo : Byte) : (hi ++ lo).toNat = lo.toNat + 256 * hi.toNat := by
  rw [BitVec.toNat_append, ← Nat.shiftLeft_add_eq_or_of_lt lo.isLt, Nat.shiftLeft_eq]
  omega

/-- The four bytes of a packed word stand in disjoint bits: the word is their concatenation, the last byte on top. -/
theorem packWord_eq_append (b0 b1 b2 b3 : Byte) : packWord b0 b1 b2 b3 = b3 ++ b2 ++ b1 ++ b0 := by
  ext i hi
  grind [packWord]

/-- Packing four bytes is reading them little-endian (R10, R63). -/
theorem packWord_eq_fromLE (b0 b1 b2 b3 : Byte) : packWord b0 b1 b2 b3 = BitVec.ofNat 32 (fromLE [b0, b1, b2, b3]) := by
  have hvalue : (b3 ++ b2 ++ b1 ++ b0).toNat = fromLE [b0, b1, b2, b3] := by
    simp only [toNat_append_byte, fromLE, Nat.mul_zero, Nat.add_zero]
  rw [packWord_eq_append, ← hvalue]
  exact ((BitVec.ofNat_toNat 32 _).trans (BitVec.setWidth_eq _)).symm

/-! ### What a word address reads as (R27, R61, R63, R64) -/

/-- Every buffer address names the byte of its own address in one of the three buffers (R61). -/
theorem placeOf_buffers {a : BitVec 12} (h : 0x100 ≤ a.toNat) (h' : a.toNat < 0x400) :
    ∃ buf index, placeOf a = .buffer buf index ∧ buf.base + index = a.toNat := by
  rcases Nat.lt_or_ge a.toNat 0x200 with htx | htx
  · exact ⟨_, _, placeOf_txbuf h htx, Nat.add_sub_cancel' h⟩
  · rcases Nat.lt_or_ge a.toNat 0x300 with hrx | hrx
    · exact ⟨_, _, placeOf_rxbuf htx hrx, Nat.add_sub_cancel' htx⟩
    · exact ⟨_, _, placeOf_framebuf hrx h', Nat.add_sub_cancel' hrx⟩

/-- A buffer word is the four bytes at its own address, little-endian (R63). -/
theorem hostWord_buffers (s : State) {a : BitVec 12} (h : 0x100 ≤ a.toNat) (h' : a.toNat < 0x400) :
    s.hostWord a = BitVec.ofNat 32 (fromLE (s.readBytes a.toNat 4)) := by
  obtain ⟨buf, index, hplace, haddr⟩ := placeOf_buffers h h'
  have hword : s.hostWord a = s.bufferWord buf index := by rw [State.hostWord, hplace]
  rw [hword, State.bufferWord, haddr, packWord_eq_fromLE]
  rfl

/-- Reserved addresses read 0 (R64). -/
theorem hostWord_reserved (s : State) {a : BitVec 12} (h : 0x030 ≤ a.toNat) (h' : a.toNat < 0x100 ∨ 0x500 ≤ a.toNat) :
    s.hostWord a = 0 := by
  rw [State.hostWord, placeOf_reserved h h']

/-- RXLEVEL is the count of received bytes the parser has yet to take (R47). -/
theorem hostWord_rxlevel (s : State) (h : s.pb.length + s.fifo.length < 65536) :
    s.hostWord 0x02C = BitVec.ofNat 32 (s.pb.length + s.fifo.length) := by
  rw [State.hostWord, show placeOf 0x02C = .rxlevel from placeOf_rxlevel]
  exact if_pos h

/-- The registers but RXLEVEL, whose count need not fit its 16 bits: the address of each and the word it shows (R27). -/
def State.registerWords (s : State) : List (BitVec 12 × Word) :=
  [(0x000, if s.ctrlIE then 1 else 0), (0x004, s.cfg), (0x008, s.timeout), (0x00C, s.cmd.setWidth 32),
    (0x010, s.arg0), (0x014, s.arg1), (0x018, s.status.word), (0x01C, s.result), (0x020, s.rxhdr),
    (0x024, s.latency), (0x028, s.pingrec)]

/-- Each register stands at a word address and reads as its word there (R27). -/
theorem hostWord_registers (s : State) : ∀ p ∈ s.registerWords, p.1.toNat % 4 = 0 ∧ s.hostWord p.1 = p.2 := by
  simp [State.registerWords, State.hostWord, flagBit]

/-! ### Host accesses as events (R62, R65) -/

/-- A read at a word address answers that address's word and leaves the engine as it is (R65); IRQ is recomputed (R58). -/
theorem handle_hostRead {a : BitVec 12} (h : a.toNat % 4 = 0) (s : State) :
    handle (.hostRead 4 a) s =
      .next { s with outputs := s.outputs ++ [.readData (s.hostWord a)], irq := s.status.done && s.ctrlIE } := by
  rw [handle, respond, hostRead_ok h]
  rfl

/-- Settles O36: a read answers `hostWord` (`handle_hostRead`), which is known address by address. -/
theorem hostReads : Obligations.HostReads := by
  intro s
  refine ⟨fun p hp => ?_, fun hcount => ?_, fun a ha hlo hhi => ?_, fun a ha hlo hhi => ?_, fun a ha => handle_hostRead ha s⟩
  · obtain ⟨ha, hword⟩ := hostWord_registers s p hp
    rw [handle_hostRead ha, hword]
  · rw [handle_hostRead (by decide), hostWord_rxlevel s hcount]
  · rw [handle_hostRead ha, hostWord_buffers s hlo hhi]
  · rw [handle_hostRead ha, hostWord_reserved s hlo hhi]

/-- An access of another width, or off the word addresses, is none the engine defines (R62). -/
theorem hostAccessOk_of_malformed {size : Nat} {a : BitVec 12} (h : size ≠ 4 ∨ a.toNat % 4 ≠ 0) :
    hostAccessOk size a = false := by
  rw [Bool.eq_false_iff, ne_eq, hostAccessOk_iff]
  tauto

theorem handle_hostWrite_malformed {size : Nat} {a : BitVec 12} (h : size ≠ 4 ∨ a.toNat % 4 ≠ 0) (v : Word) (s : State) :
    handle (.hostWrite size a v) s = .refused (.hostAccess size a) := by
  simp [handle, respond, hostWrite, hostAccessOk_of_malformed h]

theorem handle_hostRead_malformed {size : Nat} {a : BitVec 12} (h : size ≠ 4 ∨ a.toNat % 4 ≠ 0) (s : State) :
    handle (.hostRead size a) s = .refused (.hostAccess size a) := by
  simp [handle, respond, hostRead, hostAccessOk_of_malformed h]

theorem handle_txTake_nil {s : State} (h : s.txq = []) : handle .txTake s = .refused .txTakeNotEnabled := by
  simp [handle, respond, txTake, h]

/-! ### Every enabled event has a step (R140) -/

theorem onNext_next_of {o : Host.Outcome State Fault Refusal} (h : ∃ u, o = .next u) (f : State → State) :
    ∃ t, onNext o f = .next t := by
  obtain ⟨u, rfl⟩ := h
  exact ⟨f u, rfl⟩

/-- A write to CMD sets CMDERR, runs a command, which always answers (`exec_next`), or ends with ILLEGAL_CMD (R84, R158,
R159). -/
theorem writeCmd_next (v : Word) (s : State) : ∃ t, writeCmd v s = .next t := by
  obtain ⟨_, hw⟩ | ⟨_, i, _, hw⟩ | ⟨_, e, _, hw⟩ := writeCmd_cases v s <;> rw [hw]
  · exact ⟨_, rfl⟩
  · exact exec_next i _
  · exact ⟨_, rfl⟩

theorem writePlace_next (p : Place) (v : Word) (s : State) : ∃ t, writePlace p v s = .next t := by
  cases p with
  | cmd => exact writeCmd_next v s
  | buffer buf index => cases buf <;> exact ⟨_, rfl⟩
  | _ => exact ⟨_, rfl⟩

theorem hostWrite_next {size : Nat} {a : BitVec 12} (h : hostAccessOk size a = true) (v : Word) (s : State) :
    ∃ t, hostWrite size a v s = .next t := by
  rw [hostWrite, if_pos h]
  exact writePlace_next _ v s

theorem hostRead_next {size : Nat} {a : BitVec 12} (h : hostAccessOk size a = true) (s : State) :
    ∃ t, hostRead size a s = .next t := by
  rw [hostRead, if_pos h]
  exact ⟨_, rfl⟩

/-- The parser ends with no message, or with one that is received (R148, R157). -/
theorem parseAndDeliver_next (s : State) : ∃ t, parseAndDeliver s = .next t := by
  unfold parseAndDeliver
  split
  · exact ⟨_, rfl⟩
  · exact ⟨_, runMessage_eq _ _⟩

theorem rxByte_next (b : Byte) (s : State) : ∃ t, rxByte b s = .next t := by
  unfold rxByte
  split
  · exact parseAndDeliver_next _
  · exact ⟨_, rfl⟩

theorem afterLastByte_next (s : State) : ∃ t, afterLastByte s = .next t := by
  unfold afterLastByte
  split
  · exact onNext_next_of (parseAndDeliver_next _) _
  · exact ⟨_, rfl⟩

theorem txTake_next {s : State} (h : s.txq ≠ []) : ∃ t, txTake s = .next t := by
  unfold txTake
  split
  case h_1 hnil => exact absurd hnil h
  case h_2 b rest _ =>
    split
    · exact afterLastByte_next _
    · exact ⟨_, rfl⟩

theorem respond_next {e : Event} {s : State} (h : e.enabled s = true) : ∃ t, respond e s = .next t := by
  cases e with
  | hostWrite size a v => exact hostWrite_next h v s
  | hostRead size a => exact hostRead_next h s
  | rxByte b => exact rxByte_next b s
  | txTake => exact txTake_next (by simpa [Event.enabled] using h)
  | tick | reset => exact ⟨_, rfl⟩

theorem handle_next {e : Event} {s : State} (h : e.enabled s = true) : ∃ t, handle e s = .next t :=
  onNext_next_of (respond_next h) _

/-- Settles O50: by the step of each event (`handle_next`), and the refusals of R62 and R140. -/
theorem enabledEventsHaveAStep : Obligations.EnabledEventsHaveAStep := fun s _ =>
  ⟨handle_next, fun _ _ v hbad => ⟨handle_hostWrite_malformed hbad v s, handle_hostRead_malformed hbad s⟩,
    handle_txTake_nil⟩

end Sys2Proof.Machine
end

section
/-! PROOFS. The encodings (30_encoding.md): the fields of a word, the DESC window (R51, R100, R101), the opcode map and its
example words and frames (R83, R84, R88, R89, R99). -/

namespace Sys2Proof.Machine

/-! ### The fields of a word -/

/-- A word whose bits from `pos` on are those of `x`, every other bit 0. -/
def wordField {w : Nat} (pos : Nat) (x : BitVec w) : Word := x.setWidth 32 <<< pos

theorem getElem_wordField {w pos i : Nat} (x : BitVec w) (h : i < 32) :
    (wordField pos x)[i] = (decide (pos ≤ i) && x.getLsbD (i - pos)) := by
  grind [wordField]

/-- A field is read where it stands. -/
theorem extractLsb'_wordField_same {w pos : Nat} (x : BitVec w) (h : pos + w ≤ 32) :
    (wordField pos x).extractLsb' pos w = x := by
  ext i hi
  have hbit : pos + i < 32 := by omega
  simp [BitVec.getLsbD_eq_getElem hbit, getElem_wordField, BitVec.getLsbD_eq_getElem hi]

/-- Below and above a field's bits the word is 0. -/
theorem extractLsb'_wordField_other {w pos lo len : Nat} (x : BitVec w) (h : lo + len ≤ pos ∨ pos + w ≤ lo) :
    (wordField pos x).extractLsb' lo len = 0 := by
  ext i hi
  grind [wordField]

theorem flagBit_eq_wordField (b : Bool) (pos : Nat) : flagBit b pos = wordField pos (BitVec.ofBool b) := by
  cases b <;> simp [flagBit, wordField]

/-- A number that fits `w` bits makes a field of that width. -/
theorem ofNat_shiftLeft_eq_wordField {n w : Nat} (pos : Nat) (h : n < 2 ^ w) :
    BitVec.ofNat 32 n <<< pos = wordField pos (BitVec.ofNat w n) := by
  have hword : BitVec.ofNat 32 n = (BitVec.ofNat w n).setWidth 32 :=
    BitVec.eq_of_toNat_eq (by simp [Nat.mod_eq_of_lt h])
  rw [wordField, hword]

/-! ### The DESC word (R100, R101) -/

theorem typeCode_lt (t : RegType) : t.code < 2 ^ 3 := by cases t <;> decide

/-- A DESC word is its six fields. -/
theorem descWord_eq_fields {d : Descriptor} (hoffset : d.offset < 2 ^ 16) (hwidth : d.width < 2 ^ 8) :
    descWord d = wordField 0 (BitVec.ofNat 16 d.offset) ||| wordField 16 (BitVec.ofNat 8 d.width) |||
      wordField 24 (BitVec.ofNat 3 d.type.code) ||| wordField 27 (BitVec.ofBool d.nv) |||
      wordField 28 (BitVec.ofBool d.ro) ||| wordField 31 (BitVec.ofBool true) := by
  simp only [descWord, ← ofNat_shiftLeft_eq_wordField 0 hoffset, BitVec.shiftLeft_zero,
    ofNat_shiftLeft_eq_wordField 16 hwidth, ofNat_shiftLeft_eq_wordField 24 (typeCode_lt d.type), flagBit_eq_wordField]

/-- Reading its fields gives the descriptor back, with 0 in the reserved bits and 1 in bit 31. -/
theorem descWord_fields {d : Descriptor} (hoffset : d.offset < 2 ^ 16) (hwidth : d.width < 2 ^ 8) :
    ((descWord d).extractLsb' 0 16).toNat = d.offset ∧ ((descWord d).extractLsb' 16 8).toNat = d.width ∧
      ((descWord d).extractLsb' 24 3).toNat = d.type.code ∧ (descWord d).getLsbD 27 = d.nv ∧
      (descWord d).getLsbD 28 = d.ro ∧ (descWord d).extractLsb' 29 2 = 0 ∧ (descWord d).getLsbD 31 = true := by
  rw [descWord_eq_fields hoffset hwidth]
  simpa [BitVec.extractLsb'_or, extractLsb'_wordField_same, extractLsb'_wordField_other, getElem_wordField]
    using And.intro hoffset (And.intro hwidth (typeCode_lt d.type))

/-- What R210 promises of a descriptor: its offset and width fit the fields of its DESC word. -/
theorem descriptor_bounds {d : Descriptor} (hwidth : d.widthOk = true) (hspace : d.inSpace = true) :
    d.offset < 2 ^ 16 ∧ d.width < 2 ^ 8 := by
  have hrange : 1 ≤ d.width ∧ d.width ≤ 248 := by
    unfold Descriptor.widthOk at hwidth
    split at hwidth <;> simp at hwidth <;> omega
  have hend : d.offset + d.width ≤ 65536 := of_decide_eq_true hspace
  omega

/-- A chain of checks answers no problem when none of its conditions holds. -/
theorem ite_some_eq_none_iff {α : Type} {c : Prop} [Decidable c] {a : α} {o : Option α} :
    (if c then some a else o) = none ↔ ¬c ∧ o = none := by
  split <;> simp [*]

/-- The checks of R210 hold of every descriptor of an admissible parameter set. -/
theorem regmap_checked {p : ParamSet} (h : p.problem = none) :
    ∀ d ∈ p.regmap, d.widthOk = true ∧ d.inSpace = true := by
  simp only [ParamSet.problem, ite_some_eq_none_iff] at h
  obtain ⟨-, -, -, -, hwidth, hspace, -⟩ := h
  simp only [Bool.not_eq_true', Bool.not_eq_false, List.all_eq_true] at hwidth hspace
  exact fun d hd => ⟨hwidth d hd, hspace d hd⟩

/-! ### The DESC window (R51) -/

/-- DESC word `i` stands at byte address `0x400 + 4 * i`. -/
theorem hostWord_desc (s : State) {i : Nat} (h : i < 64) :
    s.hostWord (BitVec.ofNat 12 (0x400 + 4 * i)) = descWindow s.set.regmap i := by
  have haddr : (BitVec.ofNat 12 (0x400 + 4 * i)).toNat = 0x400 + 4 * i := by
    rw [BitVec.toNat_ofNat]
    omega
  have hplace := placeOf_desc (a := BitVec.ofNat 12 (0x400 + 4 * i)) (by omega) (by omega)
  have hindex : (0x400 + 4 * i - 0x400) / 4 = i := by omega
  rw [haddr, hindex] at hplace
  rw [State.hostWord, hplace]

/-- Settles O37: the word is the descriptor's DESC word (`hostWord_desc`), whose fields fit by R210. -/
theorem descriptorWindow : Obligations.DescriptorWindow := by
  intro s i hi
  rw [hostWord_desc s hi]
  constructor
  · intro hpast
    simp [descWindow, lookup, hpast]
  · intro d hd
    obtain ⟨hwidthOk, hinSpace⟩ := regmap_checked s.params.ok d (List.mem_of_getElem? hd)
    obtain ⟨hoffset, hwidth⟩ := descriptor_bounds hwidthOk hinSpace
    have hword : descWindow s.set.regmap i = descWord d := by simp [descWindow, lookup, hd]
    obtain ⟨hO, hW, hT, hNV, hRO, hres, hEN⟩ := descWord_fields hoffset hwidth
    rw [hword]
    refine ⟨hO, hW, hT, hNV, hRO, hres, hEN, hT.trans ?_⟩
    cases d.type <;> rfl

/-! ### The opcode map (R83) -/

/-- The decoder tells the command from `CMD[7:0]`. -/
theorem toNat_cmdOp {v : Word} {op : Byte} (h : v.extractLsb' 0 8 = op) : (cmdOp v).toNat = op.toNat := by
  rw [← h]
  rfl

theorem op_of_toNat_cmdOp {v : Word} {n : Nat} (h : (cmdOp v).toNat = n) : v.extractLsb' 0 8 = BitVec.ofNat 8 n := by
  rw [← h, BitVec.ofNat_toNat, BitVec.setWidth_eq]
  rfl

/-- The seventeen codes of R83. -/
def commandOps : List Byte :=
  [0x01, 0x02, 0x03, 0x04, 0x10, 0x11, 0x20, 0x21, 0x22, 0x23, 0x24, 0x25, 0x26, 0x30, 0x31, 0x32, 0x33]

/-- A code that is none of them is no command (R84). -/
theorem decodeCmd_illegal {v : Word} (h : v.extractLsb' 0 8 ∉ commandOps) :
    decodeCmd v = .error (.illegalCommand (v.extractLsb' 0 8)) := by
  unfold decodeCmd
  split
  case h_18 => rfl
  all_goals
    next hop =>
      rw [op_of_toNat_cmdOp hop] at h
      exact absurd (by decide) h

/-- Settles O3: at each code of the map the decoder's match reduces to that code's row; every other code is
`decodeCmd_illegal`. -/
theorem opcodeMap : Obligations.OpcodeMap := by
  refine ⟨?_, ?_, ?_, ?_, ?_, ?_, ?_, ?_, ?_, ?_, ?_, ?_, ?_, ?_, ?_, ?_, ?_, fun _ => decodeCmd_illegal⟩
  all_goals
    intro v hop
    rw [decodeCmd, toNat_cmdOp hop]
    rfl

/-! ### Example words and frames (R88, R89, R99) -/

/-- The three frames of R99 carry these messages: each LEN is the frame's length, each last byte its CRC-8. -/
theorem decodeFrame_examples :
    decodeFrame .crc8 [0x01, 0x06, 0x00, 0x05, 0x00, 0x57] = .ok { src := 0x00, dst := 0x05, kind := 0x00, m := [] } ∧
    decodeFrame .crc8 [0x01, 0x06, 0x05, 0x00, 0x02, 0xD8] = .ok { src := 0x05, dst := 0x00, kind := 0x02, m := [] } ∧
    decodeFrame .crc8 [0x01, 0x09, 0x00, 0x05, 0x07, 0x00, 0x01, 0x10, 0xCC] =
      .ok { src := 0x00, dst := 0x05, kind := 0x07, m := [0x00, 0x01, 0x10] } := by
  decide +kernel

/-- A frame that carries a message of a named kind is that kind's instruction. -/
theorem decode_frame_of_kind {p : ParamSet} {bs : List Byte} {src dst : Byte} {m : List Byte} (k : Kind)
    (hdistinct : p.kindCodes.distinct = true)
    (h : decodeFrame p.chkAlg bs = .ok { src := src, dst := dst, kind := p.kindCodes.code k, m := m }) :
    decode p (.frame bs) = .ok (instrOfKind k src dst m) := by
  simp only [decode, h, decodeMessage, kindOf_code hdistinct]

/-- Settles O2: the words by the opcode map (`opcodeMap`), the frames by the messages they carry. -/
theorem exampleWordsDecode : Obligations.ExampleWordsDecode := by
  obtain ⟨hchecksum, -, -, -, hexchange, -, hping, -, -, -, -, hsync, -, hread, -, -, hwriteTyped, -⟩ := opcodeMap
  obtain ⟨hkindPing, hackOk, hreadReg⟩ := decodeFrame_examples
  have hdistinct := distinct_of_problem Config.paramSet_admissible
  exact ⟨hping 0x00000520 rfl, hread 0x00000530 rfl, hexchange 0x00553410 rfl, hwriteTyped 0x00000533 rfl,
    hsync 0x00000025 rfl, hchecksum 0x00000001 rfl, decode_frame_of_kind .ping hdistinct hkindPing,
    decode_frame_of_kind .ackOk hdistinct hackOk, decode_frame_of_kind .readReg hdistinct hreadReg⟩

/-! ### An illegal command (R84) -/

/-- A host write to CMD is `writeCmd`, then IRQ recomputed (R27, R58). -/
theorem handle_hostWrite_cmd (v : Word) (s : State) :
    handle (.hostWrite 4 0x00C v) s = onNext (writeCmd v s) State.recomputeIrq := by
  rw [handle, respond, hostWrite_ok (by decide), show placeOf 0x00C = .cmd from placeOf_cmd]
  rfl

/-- A completion leaves IRQ at the level it is recomputed to (R58, R243). -/
theorem recomputeIrq_ended (s : State) (e : ErrCode) (nok : Bool) (r : Word) :
    (s.ended e nok r).recomputeIrq = s.ended e nok r := rfl

/-- Settles O35: of what a write to CMD can do (`writeCmd_cases`), an illegal code while idle leaves one case. -/
theorem illegalCommand : Obligations.IllegalCommand := by
  intro s v hidle hop
  have hdecode := decodeCmd_illegal hop
  rw [handle_hostWrite_cmd]
  obtain ⟨hbusy, _⟩ | ⟨_, i, hok, _⟩ | ⟨_, e, _, hwrite⟩ := writeCmd_cases v s
  · simp [hidle] at hbusy
  · simp [hdecode] at hok
  · rw [hwrite, onNext_next, recomputeIrq_ended]

end Sys2Proof.Machine
end

section
/-! PROOFS. The codec's functions (40_codec.md section 1): the two checksums, what `encode` builds, the checks of `decode`
in their order, and the laws of the two together (R111, R112, R114 to R120). -/

namespace Sys2Proof.Machine

/-! ### The 8-bit sum (R112) -/

/-- The 8-bit sum is the sum of the bytes mod 256. -/
theorem toNat_sum8 (bs : List Byte) : (sum8 bs).toNat = (bs.map BitVec.toNat).sum % 256 := by
  induction bs with
  | nil => rfl
  | cons b bs ih => simp [sum8, ih]

theorem toNat_sum2c (bs : List Byte) : (sum2c bs).toNat = (256 - (bs.map BitVec.toNat).sum % 256) % 256 := by
  simp [sum2c, toNat_sum8]

/-- With its `sum2c` behind it a byte list sums to 0. -/
theorem sum_append_sum2c (bs : List Byte) : ((bs ++ [sum2c bs]).map BitVec.toNat).sum % 256 = 0 := by
  simp [toNat_sum2c]
  omega

theorem sum8_append (xs ys : List Byte) : sum8 (xs ++ ys) = sum8 xs + sum8 ys := by
  induction xs with
  | nil => simp [sum8]
  | cons x xs ih => simp [sum8, ih, BitVec.add_assoc]

/-! ### The CRC (R111) -/

/-- The round of `crc8` run backwards: the polynomial is odd, so bit 0 tells whether it was added. -/
def crc8BitBack (c : Byte) : Byte :=
  if c.getLsbD 0 then ((c ^^^ 0x07) >>> 1) ||| 0x80 else c >>> 1

theorem crc8BitBack_crc8Bit : ∀ c, crc8BitBack (crc8Bit c) = c := by decide +kernel

theorem crc8Step_injective : Function.Injective crc8Step := by
  have hbit : Function.Injective crc8Bit := Function.LeftInverse.injective crc8BitBack_crc8Bit
  exact hbit.comp (hbit.comp (hbit.comp (hbit.comp (hbit.comp (hbit.comp (hbit.comp hbit))))))

theorem crc8From_append (c : Byte) (xs ys : List Byte) : crc8From c (xs ++ ys) = crc8From (crc8From c xs) ys := by
  induction xs generalizing c with
  | nil => rfl
  | cons x xs ih => exact ih _

/-- Whatever bytes follow, two register values stay apart. -/
theorem crc8From_injective (bs : List Byte) : Function.Injective (crc8From · bs) := by
  induction bs with
  | nil => exact fun _ _ h => h
  | cons b bs ih => exact fun c d h => (BitVec.xor_left_inj _).mp (crc8Step_injective (ih h))

/-! ### Both checksums -/

/-- A checksum tells apart two byte lists that differ in one byte: what R120 rests on. -/
theorem checksum_middle_injective (alg : ChkAlg) (xs ys : List Byte) {b c : Byte}
    (h : checksum alg (xs ++ b :: ys) = checksum alg (xs ++ c :: ys)) : b = c := by
  cases alg with
  | crc8 =>
    simp only [checksum, crc8, crc8From_append] at h
    exact (BitVec.xor_right_inj _).mp (crc8Step_injective (crc8From_injective ys h))
  | sum2c =>
    simp only [checksum, sum2c, sum8_append, sum8] at h
    grind

/-- Replacing one byte by another changes the checksum. -/
theorem checksum_set_ne (alg : ChkAlg) {h : List Byte} {i : Nat} {b : Byte} (hi : i < h.length) (hb : b ≠ h[i]) :
    checksum alg (h.set i b) ≠ checksum alg h := by
  intro heq
  have hsplit : h = h.take i ++ h[i] :: h.drop (i + 1) := by simp
  rw [List.set_eq_take_append_cons_drop, if_pos hi] at heq
  exact hb (checksum_middle_injective alg _ _ (heq.trans (congrArg _ hsplit)))

/-- Settles O5: the sum by its value mod 256, the check values by evaluation. -/
theorem checksums : Obligations.Checksums :=
  ⟨fun bs => ⟨toNat_sum2c bs, sum_append_sum2c bs⟩, by decide +kernel⟩

/-! ### What `encode` builds (R114, R115) -/

/-- LEN is the frame's length, for every message a LEN byte can count (R91, R93). -/
theorem frameOf_len (alg : ChkAlg) {msg : Message} (h : msg.m.length ≤ 249) :
    ((frameOf alg msg).getD 1 0).toNat = (frameOf alg msg).length := by
  obtain ⟨-, -, hlen⟩ := Laws.frameOf_shape alg msg (decide_eq_true h)
  exact hlen

/-- A frame that `encode` answered is the frame of a message that fits. -/
theorem frame_of_encodeFrame_ok {alg : ChkAlg} {src dst kind : Byte} {m f : List Byte}
    (h : encodeFrame alg src dst kind m = .ok f) :
    m.length ≤ 248 ∧ f = frameOf alg { src := src, dst := dst, kind := kind, m := m } := by
  obtain ⟨hm, hok⟩ | ⟨_, herror⟩ := encodeFrame_cases alg src dst kind m
  · rw [hok] at h
    exact ⟨hm, (Except.ok.inj h).symm⟩
  · simp [herror] at h

/-- Settles O6: by the two things `encode` can do, and the frame's shape. -/
theorem encodeFunction : Obligations.EncodeFunction := by
  refine fun alg src dst kind m => ⟨fun hm => ?_, encodeFrame_of_lt⟩
  exact ⟨_, frameOf alg { src := src, dst := dst, kind := kind, m := m }, rfl, rfl, encodeFrame_of_le hm, rfl,
    length_frameOf alg _, frameOf_len alg (hm.trans (by decide))⟩

/-! ### The checks of `decode`, in their order (R116, R117) -/

section DecodeChecks

variable {alg : ChkAlg} {b : List Byte}

theorem decodeFrame_of_empty (h : b.length = 0) : decodeFrame alg b = .error .messageIncomplete := by
  rw [decodeFrame, if_pos h]

theorem decodeFrame_of_bad_soh (h : 1 ≤ b.length) (hsoh : b.getD 0 0 ≠ SOH) : decodeFrame alg b = .error .badSoh := by
  rw [decodeFrame, if_neg (by omega), if_pos hsoh]

theorem decodeFrame_of_soh_alone (h : b.length = 1) (hsoh : b.getD 0 0 = SOH) :
    decodeFrame alg b = .error .messageIncomplete := by
  rw [decodeFrame, if_neg (by omega), if_neg (not_not.mpr hsoh), if_pos (by omega)]

/-- Past the first three checks LEN decides: below 6, above the bytes there are, below them, or their count. -/
theorem decodeFrame_of_soh (h : 2 ≤ b.length) (hsoh : b.getD 0 0 = SOH) :
    decodeFrame alg b =
      if (b.getD 1 0).toNat < 6 then .error .badLen
      else if b.length < (b.getD 1 0).toNat then .error .messageIncomplete
      else if (b.getD 1 0).toNat < b.length then .error .badLen
      else if b.getD ((b.getD 1 0).toNat - 1) 0 ≠ checksum alg (b.take ((b.getD 1 0).toNat - 1)) then
        .error .checksumError
      else .ok { src := b.getD 2 0, dst := b.getD 3 0, kind := b.getD 4 0,
                 m := (b.take ((b.getD 1 0).toNat - 1)).drop 5 } := by
  rw [decodeFrame, if_neg (by omega), if_neg (not_not.mpr hsoh), if_neg (by omega)]
  rfl

theorem decodeFrame_of_len_below_min (h : 2 ≤ b.length) (hsoh : b.getD 0 0 = SOH) (hlen : (b.getD 1 0).toNat < 6) :
    decodeFrame alg b = .error .badLen := by
  rw [decodeFrame_of_soh h hsoh, if_pos hlen]

theorem decodeFrame_of_short (h : 2 ≤ b.length) (hsoh : b.getD 0 0 = SOH) (hmin : 6 ≤ (b.getD 1 0).toNat)
    (hlen : b.length < (b.getD 1 0).toNat) : decodeFrame alg b = .error .messageIncomplete := by
  rw [decodeFrame_of_soh h hsoh, if_neg (by omega), if_pos hlen]

theorem decodeFrame_of_long (hsoh : b.getD 0 0 = SOH) (hmin : 6 ≤ (b.getD 1 0).toNat)
    (hlen : (b.getD 1 0).toNat < b.length) : decodeFrame alg b = .error .badLen := by
  rw [decodeFrame_of_soh (by omega) hsoh, if_neg (by omega), if_neg (by omega), if_pos hlen]

/-- A byte list of LEN bytes is judged by its last byte alone. -/
theorem decodeFrame_of_whole (hsoh : b.getD 0 0 = SOH) (h : 6 ≤ b.length) (hlen : b.length = (b.getD 1 0).toNat) :
    decodeFrame alg b =
      if b.getD (b.length - 1) 0 ≠ checksum alg (b.take (b.length - 1)) then .error .checksumError
      else .ok { src := b.getD 2 0, dst := b.getD 3 0, kind := b.getD 4 0, m := (b.drop 5).take (b.length - 6) } := by
  rw [decodeFrame_of_soh (by omega) hsoh, if_neg (by omega), if_neg (by omega), if_neg (by omega), ← hlen,
    List.drop_take, Nat.sub_sub]

/-- A chain of checks that raise errors answers a value when none of its conditions holds. -/
theorem ite_error_eq_ok_iff {ε α : Type} {c : Prop} [Decidable c] {e : ε} {o : Except ε α} {x : α} :
    (if c then .error e else o) = .ok x ↔ ¬c ∧ o = .ok x := by
  split <;> simp [*]

/-- What decodes is the five header bytes, the message and the checksum. -/
theorem length_of_decodeFrame_ok {msg : Message} (h : decodeFrame alg b = .ok msg) : b.length = 6 + msg.m.length := by
  simp only [decodeFrame, ite_error_eq_ok_iff] at h
  obtain ⟨-, -, -, hnotBelow, hnotShort, hnotLong, -, hmsg⟩ := h
  have hmin : 6 ≤ (b.getD 1 0).toNat := Nat.not_lt.mp hnotBelow
  rw [← Except.ok.inj hmsg, List.length_drop, List.length_take]
  omega

end DecodeChecks

/-- Settles O7: one lemma for each check. -/
theorem decodeCheckOrder : Obligations.DecodeCheckOrder := by
  intro alg b
  refine ⟨decodeFrame_of_empty, decodeFrame_of_bad_soh, decodeFrame_of_soh_alone, decodeFrame_of_len_below_min,
    decodeFrame_of_short, decodeFrame_of_long, fun hsoh h hlen hsum => ?_, fun hsoh h hlen hsum => ?_⟩
  · rw [decodeFrame_of_whole hsoh h hlen, if_pos hsum]
  · rw [decodeFrame_of_whole hsoh h hlen, if_neg (not_not.mpr hsum)]

/-! ### The round trip (R118) -/

/-- A frame decodes to its message, for every message a LEN byte can count. -/
theorem decodeFrame_frameOf (alg : ChkAlg) {msg : Message} (h : msg.m.length ≤ 249) :
    decodeFrame alg (frameOf alg msg) = .ok msg := by
  rw [decodeFrame_of_whole rfl (by simp) (frameOf_len alg h).symm, if_neg]
  · simp [frameOf, frameHead]
  · simp [frameOf]

/-- Settles O9: the frame of a message of at most 248 bytes decodes to it. -/
theorem codecRoundTrip : Obligations.CodecRoundTrip := fun alg _ _ _ m hm =>
  ⟨_, encodeFrame_of_le hm, decodeFrame_frameOf alg (by omega : m.length ≤ 249)⟩

/-! ### Frames cut short (R119) -/

/-- A frame cut short is empty, SOH alone, or shorter than the LEN it shows. -/
theorem decodeFrame_take_frameOf (alg : ChkAlg) {msg : Message} (h : msg.m.length ≤ 249) {k : Nat}
    (hk : k < (frameOf alg msg).length) : decodeFrame alg ((frameOf alg msg).take k) = .error .messageIncomplete := by
  match k with
  | 0 => exact decodeFrame_of_empty rfl
  | 1 => exact decodeFrame_of_soh_alone rfl rfl
  | k + 2 =>
    have htake : ((frameOf alg msg).take (k + 2)).length = k + 2 := List.length_take_of_le hk.le
    have hlen : (((frameOf alg msg).take (k + 2)).getD 1 0).toNat = (frameOf alg msg).length := frameOf_len alg h
    have hmin : 6 ≤ (frameOf alg msg).length := by simp
    exact decodeFrame_of_short (by omega) rfl (by omega) (by omega)

/-- Settles O10: by `decodeFrame_take_frameOf`. -/
theorem prefixLaw : Obligations.PrefixLaw := by
  intro alg src dst kind m f k hok hk
  obtain ⟨hm, rfl⟩ := frame_of_encodeFrame_ok hok
  exact decodeFrame_take_frameOf alg (hm.trans (by decide)) hk

/-! ### A changed byte (R120) -/

/-- A byte list that ends in its checksum does not, once one byte is replaced by another. -/
theorem last_ne_checksum_of_set (alg : ChkAlg) {h : List Byte} {i : Nat} {b : Byte}
    (hi : i < (h ++ [checksum alg h]).length) (hb : b ≠ (h ++ [checksum alg h]).getD i 0) :
    ((h ++ [checksum alg h]).set i b).getD h.length 0 ≠
      checksum alg (((h ++ [checksum alg h]).set i b).take h.length) := by
  rw [List.length_append, List.length_singleton] at hi
  rcases Nat.lt_or_ge i h.length with hbody | hlast
  · have hne : b ≠ h[i] := by rwa [List.getD_append _ _ _ _ hbody, List.getD_eq_getElem _ _ hbody] at hb
    rw [List.set_append_left _ _ hbody]
    simpa using (checksum_set_ne alg hbody hne).symm
  · obtain rfl : i = h.length := by omega
    rw [List.set_append_right _ _ le_rfl]
    simpa using hb

/-- A frame with another first byte does not start with SOH. -/
theorem decodeFrame_set_soh (alg : ChkAlg) (msg : Message) {b : Byte} (hb : b ≠ SOH) :
    decodeFrame alg ((frameOf alg msg).set 0 b) = .error .badSoh :=
  decodeFrame_of_bad_soh (by simp; omega) hb

/-- A frame with a smaller LEN is longer than LEN says, or LEN is too small for any frame. -/
theorem decodeFrame_set_len_below (alg : ChkAlg) (msg : Message) {b : Byte} (hb : b.toNat < (frameOf alg msg).length) :
    decodeFrame alg ((frameOf alg msg).set 1 b) = .error .badLen := by
  rcases Nat.lt_or_ge b.toNat 6 with hmin | hmin
  · exact decodeFrame_of_len_below_min (by simp; omega) rfl hmin
  · exact decodeFrame_of_long rfl hmin (hb.trans_eq (List.length_set ..).symm)

/-- A frame with a larger LEN is shorter than LEN says. -/
theorem decodeFrame_set_len_above (alg : ChkAlg) (msg : Message) {b : Byte} (hb : (frameOf alg msg).length < b.toNat) :
    decodeFrame alg ((frameOf alg msg).set 1 b) = .error .messageIncomplete := by
  have hmin : 6 ≤ (frameOf alg msg).length := by simp
  exact decodeFrame_of_short (by simp; omega) rfl (hmin.trans hb.le) ((List.length_set ..).trans_lt hb)

/-- A frame with another byte changed keeps SOH and LEN, and no longer ends in its checksum. -/
theorem decodeFrame_set_past_len (alg : ChkAlg) {msg : Message} (h : msg.m.length ≤ 249) {i : Nat} {b : Byte}
    (h2 : 2 ≤ i) (hi : i < (frameOf alg msg).length) (hb : b ≠ (frameOf alg msg).getD i 0) :
    decodeFrame alg ((frameOf alg msg).set i b) = .error .checksumError := by
  obtain ⟨j, rfl⟩ := Nat.exists_eq_add_of_le' h2
  have hset : ((frameOf alg msg).set (j + 2) b).length = 6 + msg.m.length := by simp
  have hlen : (((frameOf alg msg).set (j + 2) b).getD 1 0).toNat = (frameOf alg msg).length := frameOf_len alg h
  have hlast : ((frameOf alg msg).set (j + 2) b).length - 1 = (frameHead msg).length := by simp
  rw [decodeFrame_of_whole rfl (by omega) (by rw [hset, hlen, length_frameOf]), hlast]
  exact if_pos (last_ne_checksum_of_set alg hi hb)

/-- Settles O11: a changed SOH or LEN fails its own check; past them the checksum is wrong. -/
theorem singleByteChangeLaw : Obligations.SingleByteChangeLaw := by
  intro alg src dst kind m f i b hok hi hb
  obtain ⟨hm, rfl⟩ := frame_of_encodeFrame_ok hok
  refine ⟨?_, ?_, ?_, fun h2 => decodeFrame_set_past_len alg (hm.trans (by decide)) h2 hi hb⟩
  · rintro rfl
    exact decodeFrame_set_soh alg _ hb
  · rintro rfl
    exact decodeFrame_set_len_below alg _
  · rintro rfl
    exact decodeFrame_set_len_above alg _

end Sys2Proof.Machine
end

section
/-! PROOFS. The local codec commands CHECKSUM, ENCODE and DECODE (40_codec.md R121 to R123): the completion record each
leaves, and the exact bytes of memory it writes. -/

namespace Sys2Proof.Machine

/-! ### Completion from a clear record (R158, R241, R243) -/

/-- A command that has raised no error completes with its RESULT. -/
theorem complete_with_result {s : State} (h : s.Fresh) (r : Word) :
    State.complete { s with result := r } = s.ended .ok false r := by
  obtain ⟨herr, hnok, -⟩ := h
  rw [complete_eq_ended]
  simp only [herr, hnok]
  rfl

/-- An error leaves RESULT 0 and no refusal noted. -/
theorem raise_of_fresh {s : State} (h : s.Fresh) (e : ErrCode) : s.raise e = s.ended e false 0 := by
  obtain ⟨-, hnok, hresult⟩ := h
  rw [raise_eq_ended, hnok, hresult]

/-- A completion leaves the buffers alone. -/
@[simp] theorem readByte_ended (s : State) (e : ErrCode) (nok : Bool) (r : Word) (a : Nat) :
    (s.ended e nok r).readByte a = s.readByte a := rfl

@[simp] theorem readBytes_ended (s : State) (e : ErrCode) (nok : Bool) (r : Word) (a n : Nat) :
    (s.ended e nok r).readBytes a n = s.readBytes a n := rfl

/-- Bytes stored in a buffer read back from its start. -/
theorem readBytes_store (s : State) (buf : Buffer) {bs : List Byte} (h : bs.length ≤ 256) :
    (s.store buf bs).readBytes buf.base bs.length = bs := by
  refine List.ext_getElem (length_readBytes _ _ _) fun i _ hi => ?_
  simp only [State.readBytes, List.getElem_map, List.getElem_range]
  rw [readByte_store_inside s buf bs i hi (by omega)]

/-- N is a byte (R86). -/
theorem n_lt (s : State) : s.n < 256 := (byteAt s.arg0 16).isLt

/-! ### The commands -/

/-- Settles O12: CHECKSUM completes with its RESULT. -/
theorem checksumCommand : Obligations.ChecksumCommand := by
  obtain ⟨hdecode, -⟩ := opcodeMap
  exact ⟨hdecode, fun s hfresh => congrArg Host.Outcome.next (complete_with_result hfresh _)⟩

/-- ENCODE of a message that fits stores its frame and completes with the frame's length (R122). -/
theorem execEncode_of_le {s : State} (dst kind : Byte) (hfresh : s.Fresh) (h : s.n ≤ 248) :
    execEncode dst kind s =
      .next ((s.store .framebuf (s.requestFrame dst kind (s.readBytes 0x100 s.n))).ended .ok false
        (BitVec.ofNat 32 (6 + s.n))) := by
  have hload : (s.load .txbuf s.n).length ≤ MAX_M := (length_load s .txbuf s.n).trans_le h
  have hcount : countWord (6 + s.n) = BitVec.ofNat 32 (6 + s.n) := if_pos (by omega)
  rw [execEncode, request_of_le hload]
  dsimp only
  rw [length_frameOf, length_load, hcount]
  exact congrArg Host.Outcome.next (complete_with_result (s := s.store .framebuf _) hfresh _)

/-- ENCODE of a longer one raises PAYLOAD_TOO_LARGE (R122). -/
theorem execEncode_of_lt {s : State} (dst kind : Byte) (hfresh : s.Fresh) (h : 248 < s.n) :
    execEncode dst kind s = .next (s.ended .payloadTooLarge false 0) := by
  have hload : MAX_M < (s.load .txbuf s.n).length := h.trans_eq (length_load s .txbuf s.n).symm
  rw [execEncode, request_of_lt hload]
  exact congrArg Host.Outcome.next (raise_of_fresh hfresh _)

@[simp] theorem length_requestFrame (s : State) (dst kind : Byte) (m : List Byte) :
    (s.requestFrame dst kind m).length = 6 + m.length := length_frameOf _ _

/-- Settles O13: the store to FRAMEBUF gives the frame back and leaves every other byte alone. -/
theorem encodeCommand : Obligations.EncodeCommand := by
  obtain ⟨-, hdecode, -⟩ := opcodeMap
  refine ⟨hdecode, fun s dst kind hfresh => ⟨fun hn => ?_, execEncode_of_lt dst kind hfresh⟩⟩
  have hlen : (s.requestFrame dst kind (s.readBytes 0x100 s.n)).length = 6 + s.n := by simp
  refine ⟨_, execEncode_of_le dst kind hfresh hn, rfl, ?_, fun a ha => ?_⟩
  · rw [readBytes_ended, ← hlen]
    exact readBytes_store s .framebuf (by omega)
  · rw [readByte_ended, readByte_store_outside s .framebuf _ a (by rw [hlen]; exact ha.imp_right .inl)]

/-- DECODE of a frame records its message and completes with N (R123). -/
theorem execDecode_of_ok {s : State} {msg : Message} (hfresh : s.Fresh)
    (h : decodeFrame s.set.chkAlg (s.readBytes 0x300 s.n) = .ok msg) :
    execDecode s = .next ((s.recordMessage msg).ended .ok false (BitVec.ofNat 32 s.n)) := by
  rw [execDecode, show s.load .framebuf s.n = s.readBytes 0x300 s.n from rfl, h]
  exact congrArg Host.Outcome.next (complete_with_result (s := s.recordMessage msg) hfresh _)

/-- DECODE of anything else raises the decode error (R123). -/
theorem execDecode_of_error {s : State} {e : ErrCode} (hfresh : s.Fresh)
    (h : decodeFrame s.set.chkAlg (s.readBytes 0x300 s.n) = .error e) :
    execDecode s = .next (s.ended e false 0) := by
  rw [execDecode, show s.load .framebuf s.n = s.readBytes 0x300 s.n from rfl, h]
  exact congrArg Host.Outcome.next (raise_of_fresh hfresh _)

/-- RXHDR as a number, for a message of at most 255 bytes (R44). -/
theorem toNat_rxHeader {msg : Message} (h : msg.m.length < 256) :
    (rxHeader msg).toNat =
      msg.src.toNat + 256 * msg.dst.toNat + 65536 * msg.kind.toNat + 16777216 * msg.m.length := by
  rw [rxHeader, packWord_eq_fromLE]
  simp only [fromLE, lenByte, BitVec.toNat_ofNat]
  omega

/-- Settles O14: the store to RXBUF gives the message back and leaves every other byte alone. -/
theorem decodeCommand : Obligations.DecodeCommand := by
  obtain ⟨-, -, hdecode, -⟩ := opcodeMap
  refine ⟨hdecode, fun s hfresh => ⟨fun msg hmsg => ?_, fun e => execDecode_of_error hfresh⟩⟩
  have hlen := length_of_decodeFrame_ok hmsg
  rw [length_readBytes] at hlen
  have hn := n_lt s
  have hm : msg.m.length < 256 := by omega
  refine ⟨_, execDecode_of_ok hfresh hmsg, rfl, toNat_rxHeader hm, ?_, fun a ha => ?_⟩
  · exact readBytes_store { s with rxhdr := rxHeader msg } .rxbuf hm.le
  · exact readByte_store_outside { s with rxhdr := rxHeader msg } .rxbuf msg.m a (ha.imp_right .inl)

end Sys2Proof.Machine
end

section
/-! PROOFS. The transport's parts one at a time (41_transport.md): FLUSH (R165), the writes refused while BUSY (R159, R160),
one byte of the parser by phase (R143 to R147), and the tick (R153, R154). -/

namespace Sys2Proof.Machine

/-! ### FLUSH (R165) -/

/-- Settles O15: FLUSH completes with its RESULT once the received bytes are gone. -/
theorem flushCommand : Obligations.FlushCommand := by
  obtain ⟨-, -, -, hdecode, -⟩ := opcodeMap
  refine ⟨hdecode, fun s hfresh hcount => ?_⟩
  have hword : countWord s.unparsed = BitVec.ofNat 32 (s.pb.length + s.fifo.length) := if_pos hcount
  rw [← hword]
  exact congrArg Host.Outcome.next (complete_with_result (s := { s with pb := [], fifo := [] }) hfresh _)

/-! ### Host writes while BUSY (R159, R160) -/

/-- A write at a word address does what its place says, then IRQ is recomputed (R58, R66). -/
theorem handle_hostWrite {a : BitVec 12} (h : a.toNat % 4 = 0) (v : Word) (s : State) :
    handle (.hostWrite 4 a v) s = onNext (writePlace (placeOf a) v s) State.recomputeIrq := by
  rw [handle, respond, hostWrite_ok h]

/-- CFG, TIMEOUT, ARG0, ARG1, TXBUF and FRAMEBUF take protected writes (R160). -/
theorem writePlace_protected {a : BitVec 12}
    (h : a ∈ ([0x004, 0x008, 0x010, 0x014] : List (BitVec 12)) ∨ (0x100 ≤ a.toNat ∧ a.toNat < 0x200) ∨
      (0x300 ≤ a.toNat ∧ a.toNat < 0x400)) (v : Word) (s : State) :
    ∃ w, writePlace (placeOf a) v s = .next (s.protect w) := by
  obtain hreg | ⟨hlo, hhi⟩ | ⟨hlo, hhi⟩ := h
  · simp only [List.mem_cons, List.not_mem_nil, or_false] at hreg
    obtain rfl | rfl | rfl | rfl := hreg
    · exact ⟨_, congrArg (writePlace · v s) placeOf_cfg⟩
    · exact ⟨_, congrArg (writePlace · v s) placeOf_timeout⟩
    · exact ⟨_, congrArg (writePlace · v s) placeOf_arg0⟩
    · exact ⟨_, congrArg (writePlace · v s) placeOf_arg1⟩
  · exact ⟨_, congrArg (writePlace · v s) (placeOf_txbuf hlo hhi)⟩
  · exact ⟨_, congrArg (writePlace · v s) (placeOf_framebuf hlo hhi)⟩

/-- Settles O42: while BUSY each of the two kinds of refused write leaves one case, its flag. -/
theorem hostWritesWhileBusy : Obligations.HostWritesWhileBusy := by
  refine fun s v hbusy => ⟨?_, fun a ha hplace => ?_⟩
  · rw [handle_hostWrite_cmd]
    obtain ⟨-, hwrite⟩ | ⟨hidle, -⟩ | ⟨hidle, -⟩ := writeCmd_cases v s
    · rw [hwrite]
      rfl
    · simp [hbusy] at hidle
    · simp [hbusy] at hidle
  · obtain ⟨w, hwrite⟩ := writePlace_protected hplace v s
    rw [handle_hostWrite ha, hwrite]
    obtain ⟨-, hprotect⟩ | ⟨hidle, -⟩ := protect_cases s w
    · rw [hprotect]
      rfl
    · simp [hbusy] at hidle

/-! ### One byte of the parser, by phase (R143 to R148) -/

section ParserPhases

variable {s : State} {b : Byte}

theorem parseByte_of_awaitSoh (h : s.status.phase = .awaitSoh) : s.parseByte b = (s.parseSoh b, none) := by
  rw [State.parseByte, h]

theorem parseByte_of_awaitHeader (h : s.status.phase = .awaitHeader) : s.parseByte b = (s.parseHeader b, none) := by
  rw [State.parseByte, h]

theorem parseByte_of_awaitPayload (h : s.status.phase = .awaitPayload) : s.parseByte b = (s.parsePayload b, none) := by
  rw [State.parseByte, h]

theorem parseByte_of_awaitChecksum (h : s.status.phase = .awaitChecksum) : s.parseByte b = s.parseChecksum b := by
  rw [State.parseByte, h]

theorem parseSoh_soh (h : b = 0x01) :
    s.parseSoh b = { s with cbuf := [b], status := { s.status with phase := .awaitHeader } } :=
  if_pos h

theorem parseSoh_noise (h : b ≠ 0x01) : s.parseSoh b = s := if_neg h

/-- A LEN below 6 is bad as soon as it is seen: the candidate is discarded (R144, R147). -/
theorem parseHeader_bad_len (hlen : s.cbuf.length = 1) (hb : b.toNat < 6) :
    s.parseHeader b =
      { s with
        pb := (s.cbuf ++ [b]).drop 1 ++ s.pb
        cbuf := []
        status := { s.status with lenseen := true, phase := .awaitSoh } } :=
  if_pos ⟨by simp [hlen], hb⟩

/-- Any other byte of the header joins the candidate; the fourth ends the header (R144). -/
theorem parseHeader_other (h : s.cbuf.length = 1 → 6 ≤ b.toNat) :
    s.parseHeader b =
      if s.cbuf.length = 3 then
        { s with cbuf := s.cbuf ++ [b], status := { s.status with phase := .awaitPayload } }
      else { s with cbuf := s.cbuf ++ [b] } := by
  have hgood : ¬ (s.cbuf.length = 1 ∧ b.toNat < MIN_LEN) := fun ⟨hlen, hb⟩ => absurd (h hlen) (Nat.not_le.mpr hb)
  simp [State.parseHeader, State.setPhase, hgood]

/-- The byte after the header joins the candidate, whose LEN stands in its second byte; the last before the checksum ends
the payload (R145). -/
theorem parsePayload_eq (h : 2 ≤ s.cbuf.length) :
    s.parsePayload b =
      if s.cbuf.length + 2 = (s.cbuf.getD 1 0).toNat then
        { s with cbuf := s.cbuf ++ [b], status := { s.status with phase := .awaitChecksum } }
      else { s with cbuf := s.cbuf ++ [b] } := by
  have hlen : State.candLen { s with cbuf := s.cbuf ++ [b] } = (s.cbuf.getD 1 0).toNat :=
    congrArg BitVec.toNat (List.getD_append _ _ _ _ h)
  rw [State.parsePayload, hlen, List.length_append]
  rfl

/-- A right checksum delivers the candidate's message (R146). -/
theorem parseChecksum_right (h : b = checksum s.set.chkAlg s.cbuf) :
    s.parseChecksum b = ({ s with cbuf := [] }, some s.candidate) :=
  if_pos h

/-- A wrong checksum discards the candidate (R146, R147). -/
theorem parseChecksum_wrong (h : b ≠ checksum s.set.chkAlg s.cbuf) :
    s.parseChecksum b =
      ({ s with
          pb := (s.cbuf ++ [b]).drop 1 ++ s.pb
          cbuf := []
          status := { s.status with chkseen := true, phase := .awaitSoh } }, none) :=
  if_neg h

end ParserPhases

/-- Settles O44: each phase's rule, on the side of its test that the statement names. -/
theorem parserByte : Obligations.ParserByte := by
  intro s b
  refine ⟨fun hphase hsoh => ?_, fun hphase hnoise => ?_, fun hphase hlen hb => ?_, fun hphase hlen => ?_,
    fun hphase hlen => ?_, fun hphase hlen hmore => ?_, fun hphase hlen hlast => ?_, fun hphase hsum => ?_,
    fun hphase hsum => ?_⟩
  · rw [parseByte_of_awaitSoh hphase, parseSoh_soh hsoh]
  · rw [parseByte_of_awaitSoh hphase, parseSoh_noise hnoise]
  · rw [parseByte_of_awaitHeader hphase, parseHeader_bad_len hlen hb]
  · rw [parseByte_of_awaitHeader hphase, parseHeader_other (by omega), if_neg (by omega)]
  · rw [parseByte_of_awaitHeader hphase, parseHeader_other (by omega), if_pos hlen]
  · rw [parseByte_of_awaitPayload hphase, parsePayload_eq hlen, if_neg hmore.ne]
  · rw [parseByte_of_awaitPayload hphase, parsePayload_eq hlen, if_pos hlast]
  · rw [parseByte_of_awaitChecksum hphase, parseChecksum_right hsum]
    rfl
  · rw [parseByte_of_awaitChecksum hphase, parseChecksum_wrong hsum]

/-! ### The tick (R45, R153, R154) -/

/-- A tick counts for LATENCY, then for the deadline, then IRQ is recomputed (R58, R153). -/
theorem handle_tick (s : State) : handle .tick s = .next s.countLatency.countDown.recomputeIrq := rfl

/-- LATENCY counts up and stays at its greatest value (R45). -/
theorem satInc_eq (v : Word) : satInc v = BitVec.ofNat 32 (min (v.toNat + 1) 0xFFFFFFFF) := by
  unfold satInc
  split
  case isTrue hmax => simp [hmax]
  case isFalse hless =>
    have hlt : v.toNat + 1 ≤ 0xFFFFFFFF := by bv_omega
    rw [Nat.min_eq_left hlt]
    bv_omega

theorem countLatency_of_idle {s : State} (h : s.status.busy = false) : s.countLatency = s :=
  if_neg (by simp [h])

theorem countLatency_of_busy {s : State} (h : s.status.busy = true) :
    s.countLatency = { s with latency := BitVec.ofNat 32 (min (s.latency.toNat + 1) 0xFFFFFFFF) } := by
  rw [← satInc_eq]
  exact if_pos h

/-- The deadline does not run outside the receive phase (R153). -/
theorem countDown_of_not_receiving {s : State} (h : s.status.phase.receiving = false) : s.countDown = s :=
  if_neg (by simp [h])

theorem countDown_before_deadline {s : State} (h : s.status.phase.receiving = true) (htmr : 2 ≤ s.tmr.toNat) :
    s.countDown = { s with tmr := s.tmr - 1 } := by
  have hmore : s.tmr - 1 ≠ 0 := by bv_omega
  rw [State.countDown, if_pos h]
  exact if_neg hmore

/-- The tick that brings the timer to 0 ends the receive phase (R153). -/
theorem countDown_at_deadline {s : State} (h : s.status.phase.receiving = true) (htmr : s.tmr = 1) :
    s.countDown = State.expire { s with tmr := 0 } := by
  simp [State.countDown, h, htmr]

/-- With no candidate begun, the deadline ends the command with TIMEOUT (R154). -/
theorem countDown_timeout {s : State} (h : s.status.phase = .awaitSoh) (htmr : s.tmr = 1) :
    s.countDown = State.ended { s with tmr := 0 } .timeout s.status.nok s.result := by
  rw [countDown_at_deadline (by rw [h]; rfl) htmr]
  obtain ⟨-, hexpire⟩ | ⟨hmid, -⟩ := expire_cases { s with tmr := 0 }
  · exact hexpire
  · exact absurd h hmid

/-- Mid-frame, the deadline ends the command with MESSAGE_INCOMPLETE and pushes the candidate's bytes after its SOH back
(R154). -/
theorem countDown_incomplete {s : State} (h : s.status.phase.receiving = true) (hmid : s.status.phase ≠ .awaitSoh)
    (htmr : s.tmr = 1) :
    s.countDown =
      State.ended { s with tmr := 0, pb := s.cbuf.drop 1 ++ s.pb } .messageIncomplete s.status.nok s.result := by
  rw [countDown_at_deadline h htmr]
  obtain ⟨hsoh, -⟩ | ⟨-, hexpire⟩ := expire_cases { s with tmr := 0 }
  · exact absurd hsoh hmid
  · exact hexpire

/-- Settles O46: LATENCY counts first; then each case is what the deadline does to the state that leaves. -/
theorem tickCounts : Obligations.TickCounts := by
  refine fun s => ⟨fun hidle hphase => ?_, fun hbusy => ?_⟩
  · rw [handle_tick, countLatency_of_idle hidle, countDown_of_not_receiving (by rw [hphase]; rfl)]
    rfl
  intro l
  have hcount : s.countLatency = { s with latency := l } := countLatency_of_busy hbusy
  rw [handle_tick, hcount]
  refine ⟨fun hphase => ?_, fun hrecv htmr => ?_, fun hphase htmr => ?_, fun hrecv hmid htmr => ?_⟩
  · rw [countDown_of_not_receiving (by rw [hphase]; rfl)]
    rfl
  · rw [countDown_before_deadline (s := { s with latency := l }) hrecv htmr]
    rfl
  · rw [countDown_timeout (s := { s with latency := l }) hphase htmr, recomputeIrq_ended]
  · rw [countDown_incomplete (s := { s with latency := l }) hrecv hmid htmr, recomputeIrq_ended]

end Sys2Proof.Machine
end

section
/-! PROOFS. The device operations (42_device_ops.md): the record a reply check leaves when it is met in the receive phase,
the ACK check (R181), and PING_LATEST (R184). -/

namespace Sys2Proof.Machine

/-! ### Frames of every kind (R94, R96) -/

/-- The arms pair each kind's instruction with the kind. -/
theorem kindArms_eq_map : kindArms = Kind.all.map fun k => (instrOfKind k, k) := rfl

/-- The instruction of each arm receives the message of the arm's kind. -/
theorem exec_kindArm {p : (Byte → Byte → List Byte → Instr) × Kind} (hp : p ∈ kindArms) (s : State) (src dst : Byte)
    (m : List Byte) : exec (p.1 src dst m) s = .next (s.receiveMessage (s.messageOf p.2 src dst m)) := by
  rw [kindArms_eq_map] at hp
  obtain ⟨k, -, rfl⟩ := List.mem_map.mp hp
  exact exec_instrOfKind k src dst m s

/-- No two kinds have one code (R8). -/
theorem code_eq_code_iff {s : State} {j k : Kind} : s.code j = s.code k ↔ j = k :=
  ⟨code_injective (kindCodes_distinct s), congrArg s.code⟩

/-- Recording a message leaves the parameters alone. -/
@[simp] theorem recorded_code (s : State) (msg : Message) (k : Kind) : (s.recorded msg).code k = s.code k := rfl

/-- Recording a message leaves the completion record clear (R157). -/
theorem fresh_recorded {s : State} (h : s.Fresh) (msg : Message) : (s.recorded msg).Fresh := h

/-- A message a command awaits is recorded, then judged by the command's check (R157). -/
theorem receiveMessage_of_awaits {s : State} {c : ReplyCheck} (h : s.Awaits c) (msg : Message) :
    s.receiveMessage msg = c.run msg (s.recorded msg) := by
  obtain ⟨hphase, hctx, -⟩ := h
  rw [receiveMessage_of_receiving msg hphase hctx, State.deliver, recordMessage_eq_recorded]

/-! ### The checks' two last branches (R181) -/

/-- A command that has set no RESULT completes with RESULT 0. -/
theorem complete_of_fresh {s : State} (h : s.Fresh) : s.complete = s.ended .ok false 0 := by
  obtain ⟨herr, hnok, hresult⟩ := h
  rw [complete_eq_ended, herr, hnok, hresult]

/-- A refusal completes without error, NOK set. -/
theorem complete_with_nok {s : State} (h : s.Fresh) :
    State.complete { s with status := { s.status with nok := true } } = s.ended .ok true 0 := by
  obtain ⟨herr, -, hresult⟩ := h
  rw [complete_eq_ended]
  simp only [herr, hresult]
  rfl

/-- What every check but EXCHANGE's does to a message it does not accept. -/
theorem refusedOrUnexpected_of_fresh {s : State} (h : s.Fresh) (msg : Message) :
    s.refusedOrUnexpected msg =
      if msg.kind = s.code .ackNok then s.ended .ok true 0 else s.ended .unexpectedReply false 0 := by
  rw [State.refusedOrUnexpected, complete_with_nok h, raise_of_fresh h]

/-! ### The ACK check (R181) -/

/-- The ACK check's three outcomes, by the message's kind code and bytes. -/
theorem checkAck_of_fresh {s : State} (h : s.Fresh) (msg : Message) :
    checkAck msg s =
      if msg.kind = s.code .ackOk ∧ msg.m = [] then s.ended .ok false 0
      else if msg.kind = s.code .ackNok then s.ended .ok true 0
      else s.ended .unexpectedReply false 0 := by
  simp only [checkAck, complete_of_fresh h, refusedOrUnexpected_of_fresh h, List.length_eq_zero_iff]

/-- A message that meets a command awaiting an ACK. -/
theorem receiveMessage_of_awaits_ack {s : State} (h : s.Awaits .ack) (msg : Message) :
    s.receiveMessage msg =
      if msg.kind = s.code .ackOk ∧ msg.m = [] then (s.recorded msg).ended .ok false 0
      else if msg.kind = s.code .ackNok then (s.recorded msg).ended .ok true 0
      else (s.recorded msg).ended .unexpectedReply false 0 := by
  have ⟨_, _, hfresh⟩ := h
  rw [receiveMessage_of_awaits h, ReplyCheck.run, checkAck_of_fresh (fresh_recorded hfresh msg), recorded_code,
    recorded_code]

/-- Settles O24: the outcome turns on the message's code, which is a named kind's own code and no other kind's
(`code_eq_code_iff`), or the code of none. -/
theorem ackCheck : Obligations.AckCheck := by
  refine fun s src dst m hawaits _ => ⟨fun p hp => ?_, fun kind hunnamed => ?_⟩
  · rw [exec_kindArm hp, receiveMessage_of_awaits_ack hawaits]
    simp only [State.messageOf, code_eq_code_iff]
  · have hnotOk : ¬(kind = s.code .ackOk ∧ m = []) := fun ⟨hkind, _⟩ => hunnamed .ackOk hkind.symm
    have hnotNok : kind ≠ s.code .ackNok := (hunnamed .ackNok).symm
    rw [runMessage_eq, receiveMessage_of_awaits_ack hawaits, if_neg hnotOk, if_neg hnotNok]

/-! ### PING_LATEST (R184) -/

/-- When the ping record is current: the four tests on the fields of PINGREC and CFG (R29, R46). -/
theorem pingLatest_iff (s : State) :
    s.pingLatest = true ↔
      s.status.prValid = true ∧ s.pingrec.extractLsb' 0 8 = s.cfg.extractLsb' 16 8 ∧
        s.pingrec.extractLsb' 8 8 = s.cfg.extractLsb' 24 8 ∧
        s.pingrec.extractLsb' 16 8 = s.pingrec.extractLsb' 24 8 := by
  simp only [State.pingLatest, Bool.and_eq_true, beq_iff_eq, and_assoc]
  rfl

/-- Settles O16: PING_LATEST completes with its RESULT, the ping record's test (`pingLatest_iff`). -/
theorem pingLatestCommand : Obligations.PingLatestCommand := by
  obtain ⟨-, -, -, -, -, -, -, -, -, -, -, -, hdecode, -⟩ := opcodeMap
  refine ⟨hdecode, fun s hfresh => ?_⟩
  simp only [← pingLatest_iff]
  exact congrArg Host.Outcome.next (complete_with_result hfresh _)

end Sys2Proof.Machine
end

section
/-! PROOFS. Access to a leaf's registers (43_register_access.md): WRITE's pre-flight checks (R214, R215), the typed encode
and decode on the widths R210 admits (R216, R217), WRITE_TYPED (R219) and READ_TYPED's check (R218). -/

namespace Sys2Proof.Machine

/-! ### The widths of a register map (R210) -/

/-- No register is empty. -/
theorem width_pos {d : Descriptor} (h : d.widthOk = true) : 1 ≤ d.width := by
  unfold Descriptor.widthOk at h
  split at h <;> simp at h <;> omega

theorem widthOk_of_mem_regmap {s : State} {d : Descriptor} (h : d ∈ s.set.regmap) : d.widthOk = true :=
  (regmap_checked s.params.ok d h).left

/-- A register that `lookup` finds has a width that suits its type (R212). -/
theorem widthOk_of_lookup {s : State} {i : Nat} {d : Descriptor} (h : s.set.regmap[i]? = some d) : d.widthOk = true :=
  widthOk_of_mem_regmap (List.mem_of_getElem? h)

/-! ### WRITE (R214, R215) -/

/-- Two non-empty ranges meet when some byte lies in both. -/
theorem exists_common_byte_iff {o n p w : Nat} (hn : 1 ≤ n) (hw : 1 ≤ w) :
    (∃ a, o ≤ a ∧ a < o + n ∧ p ≤ a ∧ a < p + w) ↔ p < o + n ∧ o < p + w := by
  constructor
  · rintro ⟨a, hlo, hhi, hlo', hhi'⟩
    omega
  · intro ⟨hp, ho⟩
    exact ⟨max o p, by omega⟩

/-- The read-only check, byte by byte (R215). -/
theorem roHit_iff_byte (s : State) {o n : Nat} (hn : 1 ≤ n) :
    roHit s.set.regmap o n = true ↔
      ∃ d ∈ s.set.regmap, d.ro = true ∧ ∃ a, o ≤ a ∧ a < o + n ∧ d.offset ≤ a ∧ a < d.offset + d.width := by
  rw [roHit_iff]
  refine exists_congr fun d => and_congr_right fun hd => and_congr_right fun _ => ?_
  exact (exists_common_byte_iff hn (width_pos (widthOk_of_mem_regmap hd))).symm

section WritePreflight

variable {s : State}

theorem writePreflight_of_empty (h : s.n = 0) : s.writePreflight = some .badRequest := if_pos h

theorem writePreflight_of_long (h : 246 < s.n) : s.writePreflight = some .payloadTooLarge :=
  (if_neg (Nat.ne_zero_of_lt h)).trans (if_pos h)

/-- For a count of bytes that a frame takes, the range is left to check (R214). -/
theorem writePreflight_of_count (hpos : 1 ≤ s.n) (hmax : s.n ≤ 246) :
    s.writePreflight =
      if 65536 < s.offset + s.n then some .badRequest
      else if roHit s.set.regmap s.offset s.n then some .writeErrorReadOnly else none :=
  (if_neg (Nat.ne_zero_of_lt hpos)).trans (if_neg (Nat.not_lt.mpr hmax))

end WritePreflight

/-- A WRITE that a pre-flight check refuses sends nothing. -/
theorem execWrite_of_refused {s : State} {e : ErrCode} (dst : Byte) (hfresh : s.Fresh) (h : s.writePreflight = some e) :
    execWrite dst s = .next (s.ended e false 0) := by
  rw [execWrite, h]
  exact congrArg Host.Outcome.next (raise_of_fresh hfresh e)

/-- A WRITE that passes them queues the request: the offset and the N bytes of TXBUF. -/
theorem execWrite_of_passed {s : State} (dst : Byte) (h : s.writePreflight = none) (hmax : s.n ≤ 246) :
    execWrite dst s =
      .next (s.sending (s.requestFrame dst (s.code .writeReg) (le16 s.offset ++ s.readBytes 0x100 s.n)) (some .ack)) := by
  have hfits : (le16 s.offset ++ s.load .txbuf s.n).length ≤ MAX_M := by
    rw [List.length_append, length_load]
    exact Nat.add_le_add_left hmax 2
  rw [execWrite, h]
  exact congrArg Host.Outcome.next (exchange_of_le .ack hfits)

/-- The offset's two bytes are the low bytes of ARG0 (R10, R86). -/
theorem le16_offset (s : State) : le16 s.offset = [s.arg0.extractLsb' 0 8, s.arg0.extractLsb' 8 8] := by
  have hlow : BitVec.ofNat 8 s.offset = s.arg0.extractLsb' 0 8 :=
    BitVec.eq_of_toNat_eq (by simp [State.offset])
  have hhigh : BitVec.ofNat 8 (s.offset / 256) = s.arg0.extractLsb' 8 8 :=
    BitVec.eq_of_toNat_eq (by simp [State.offset, Nat.shiftRight_eq_div_pow]; omega)
  rw [le16, hlow, hhigh]

/-- Settles O20: each clause is one outcome of the pre-flight checks. -/
theorem writeCommand : Obligations.WriteCommand := by
  refine fun s dst hfresh => ⟨fun hzero => ?_, fun hmax => ?_, fun hpos hmax hspace => ?_,
    fun hpos hmax hspace hro => ?_, fun hpos hmax hspace hrw => ?_⟩
  · exact execWrite_of_refused dst hfresh (writePreflight_of_empty hzero)
  · exact execWrite_of_refused dst hfresh (writePreflight_of_long hmax)
  · refine execWrite_of_refused dst hfresh ?_
    rw [writePreflight_of_count hpos hmax, if_pos hspace]
  · refine execWrite_of_refused dst hfresh ?_
    rw [writePreflight_of_count hpos hmax, if_neg (Nat.not_lt.mpr hspace), if_pos ((roHit_iff_byte s hpos).mpr hro)]
  · have hclear : ¬roHit s.set.regmap s.offset s.n = true := fun hhit => by
      obtain ⟨d, hd, hro, a, hlo, hhi, hin⟩ := (roHit_iff_byte s hpos).mp hhit
      exact hrw d hd hro a hlo hhi hin
    rw [← le16_offset]
    refine execWrite_of_passed dst ?_ hmax
    rw [writePreflight_of_count hpos hmax, if_neg (Nat.not_lt.mpr hspace), if_neg hclear]

/-! ### The typed encode (R217) -/

/-- A scalar's encoding is VALUE's low bytes, when VALUE fits the register. -/
theorem typedEncode_of_scalar {d : Descriptor} (s : State) (hwidth : d.widthOk = true) (hscalar : d.type ≠ .bytebuf)
    (v : Word) :
    s.typedEncode d v =
      if v.toNat < 2 ^ (8 * d.width) then .ok ((le32 v).take d.width) else .error .badRequest := by
  have hword : v.toNat < 2 ^ (8 * 4) := v.isLt
  unfold Descriptor.widthOk at hwidth
  unfold State.typedEncode
  cases htype : d.type with
  | float32 | uint32 =>
    have hfour : d.width = 4 := by simpa [htype] using hwidth
    simp only [hfour]
    rw [if_pos hword]
    rfl
  | uint8 =>
    have hone : d.width = 1 := by simpa [htype] using hwidth
    simp only [hone]
    split
    case isTrue hbig => rw [if_neg (by omega)]
    case isFalse hsmall => rw [if_pos (by omega)]; rfl
  | bitflags =>
    have hrange : 1 ≤ d.width ∧ d.width ≤ 4 := by simpa [htype] using hwidth
    dsimp only
    split
    case isTrue hbig => rw [if_neg (Nat.not_lt.mpr hbig.2)]
    case isFalse hsmall =>
      have hfits : v.toNat < 2 ^ (8 * d.width) := by
        obtain hless | hfour : d.width < 4 ∨ d.width = 4 := by omega
        · exact Nat.lt_of_not_le fun hle => hsmall ⟨hless, hle⟩
        · rwa [hfour]
      rw [if_pos hfits]
  | bytebuf => exact absurd htype hscalar

/-- A byte buffer's encoding is the bytes of TXBUF, when they fit a frame. -/
theorem typedEncode_of_bytebuf {d : Descriptor} (s : State) (h : d.type = .bytebuf) (v : Word) :
    s.typedEncode d v = if 246 < d.width then .error .payloadTooLarge else .ok (s.readBytes 0x100 d.width) := by
  rw [State.typedEncode, h]
  rfl

/-! ### WRITE_TYPED (R219) -/

section WriteTyped

variable {s : State} {d : Descriptor} {e : ErrCode} {data : List Byte}

theorem execWriteTyped_of_no_register (dst : Byte) (hfresh : s.Fresh) (h : s.set.regmap.length ≤ s.regid) :
    execWriteTyped dst s = .next (s.ended .badRequest false 0) := by
  rw [execWriteTyped, lookup, List.getElem?_eq_none h]
  exact congrArg Host.Outcome.next (raise_of_fresh hfresh _)

theorem execWriteTyped_of_readOnly (dst : Byte) (hfresh : s.Fresh) (hd : s.set.regmap[s.regid]? = some d)
    (hro : d.ro = true) : execWriteTyped dst s = .next (s.ended .writeErrorReadOnly false 0) := by
  simp [execWriteTyped, lookup, hd, hro, raise_of_fresh hfresh]

/-- A value that has no encoding is refused. -/
theorem execWriteTyped_of_error (dst : Byte) (hfresh : s.Fresh) (hd : s.set.regmap[s.regid]? = some d)
    (hrw : d.ro = false) (h : s.typedEncode d s.arg1 = .error e) :
    execWriteTyped dst s = .next (s.ended e false 0) := by
  simp [execWriteTyped, lookup, hd, hrw, State.value, h, raise_of_fresh hfresh]

/-- Encoded bytes that fit a frame behind the offset are sent. -/
theorem execWriteTyped_of_ok (dst : Byte) (hd : s.set.regmap[s.regid]? = some d) (hrw : d.ro = false)
    (h : s.typedEncode d s.arg1 = .ok data) (hlen : data.length ≤ 246) :
    execWriteTyped dst s =
      .next (s.sending (s.requestFrame dst (s.code .writeReg) (le16 d.offset ++ data)) (some .ack)) := by
  have hfits : (le16 d.offset ++ data).length ≤ MAX_M := by
    rw [List.length_append]
    exact Nat.add_le_add_left hlen 2
  simp [execWriteTyped, lookup, hd, hrw, State.value, h, exchange_of_le .ack hfits, State.requestFrame]

end WriteTyped

/-- Settles O22: a writable register's outcome is its typed encoding's, by the two forms of R217. -/
theorem writeTypedCommand : Obligations.WriteTypedCommand := by
  refine fun s dst hfresh => ⟨execWriteTyped_of_no_register dst hfresh,
    fun d hd hro => execWriteTyped_of_readOnly dst hfresh hd hro,
    fun d hd hrw hscalar hbig => ?_, fun d hd hrw hscalar hfits => ?_,
    fun d hd hrw hbuf hwide => ?_, fun d hd hrw hbuf hfits => ?_⟩
  · refine execWriteTyped_of_error dst hfresh hd hrw ?_
    rw [typedEncode_of_scalar s (widthOk_of_lookup hd) hscalar, if_neg (Nat.not_lt.mpr hbig)]
  · refine execWriteTyped_of_ok dst hd hrw (data := (le32 s.arg1).take d.width) ?_ ?_
    · rw [typedEncode_of_scalar s (widthOk_of_lookup hd) hscalar, if_pos hfits]
    · exact (List.length_take_le' _ _).trans (by simp [le32])
  · refine execWriteTyped_of_error dst hfresh hd hrw ?_
    rw [typedEncode_of_bytebuf s hbuf, if_pos hwide]
  · refine execWriteTyped_of_ok dst hd hrw ?_ (by rwa [length_readBytes])
    rw [typedEncode_of_bytebuf s hbuf, if_neg (Nat.not_lt.mpr hfits)]

/-! ### The typed decode and READ_TYPED's check (R216, R218) -/

/-- A whole reply decodes to the number its bytes make, a byte buffer's to its length (R216). -/
theorem typedDecode_of_length {d : Descriptor} {m : List Byte} (hwidth : d.widthOk = true) (hlen : m.length = d.width) :
    typedDecode d m = BitVec.ofNat 32 (if d.type = .bytebuf then d.width else fromLE m) := by
  unfold Descriptor.widthOk at hwidth
  unfold typedDecode
  cases htype : d.type with
  | float32 | uint32 =>
    have hfour : m.length = 4 := by simpa [htype, ← hlen] using hwidth
    simp [List.take_of_length_le hfour.le]
  | uint8 =>
    have hone : m.length = 1 := by simpa [htype, ← hlen] using hwidth
    obtain ⟨b, rfl⟩ := List.length_eq_one_iff.mp hone
    exact BitVec.eq_of_toNat_eq (by simp [fromLE])
  | bitflags => simp [List.take_of_length_le hlen.le]
  | bytebuf => rfl

/-- The typed check's three outcomes, by the message's kind code and length. -/
theorem checkTyped_of_fresh {s : State} {d : Descriptor} (h : s.Fresh) (hwidth : d.widthOk = true) (msg : Message) :
    checkTyped d msg s =
      if msg.kind = s.code .readReply ∧ msg.m.length = d.width then
        s.ended .ok false (BitVec.ofNat 32 (if d.type = .bytebuf then d.width else fromLE msg.m))
      else if msg.kind = s.code .ackNok then s.ended .ok true 0
      else s.ended .unexpectedReply false 0 := by
  rw [checkTyped, refusedOrUnexpected_of_fresh h, complete_with_result h]
  exact ite_congr rfl (fun ⟨_, hlen⟩ => by rw [typedDecode_of_length hwidth hlen]) fun _ => rfl

/-- A message that meets a command awaiting a typed reply. -/
theorem receiveMessage_of_awaits_typed {s : State} {d : Descriptor} (h : s.Awaits (.typed d)) (hwidth : d.widthOk = true)
    (msg : Message) :
    s.receiveMessage msg =
      if msg.kind = s.code .readReply ∧ msg.m.length = d.width then
        (s.recorded msg).ended .ok false (BitVec.ofNat 32 (if d.type = .bytebuf then d.width else fromLE msg.m))
      else if msg.kind = s.code .ackNok then (s.recorded msg).ended .ok true 0
      else (s.recorded msg).ended .unexpectedReply false 0 := by
  have ⟨_, _, hfresh⟩ := h
  rw [receiveMessage_of_awaits h, ReplyCheck.run, checkTyped_of_fresh (fresh_recorded hfresh msg) hwidth, recorded_code,
    recorded_code]

/-- Settles O28: the outcome turns on the message's code, a named kind's own or the code of none, and its RESULT is the
typed decode of a whole reply (`typedDecode_of_length`). -/
theorem typedCheck : Obligations.TypedCheck := by
  intro s d src dst m hawaits hd _
  have hreceive := receiveMessage_of_awaits_typed hawaits (widthOk_of_mem_regmap hd)
  refine ⟨fun p hp => ?_, fun kind hunnamed => ?_⟩
  · rw [exec_kindArm hp, hreceive]
    simp only [State.messageOf, code_eq_code_iff]
  · have hnotReply : ¬(kind = s.code .readReply ∧ m.length = d.width) := fun ⟨hkind, _⟩ => hunnamed .readReply hkind.symm
    have hnotNok : kind ≠ s.code .ackNok := (hunnamed .ackNok).symm
    rw [runMessage_eq, hreceive, if_neg hnotReply, if_neg hnotNok]

end Sys2Proof.Machine
end

section
/-! PROOFS. Decoding against encoding (30_encoding.md R80, R83, R90, R94; 40_codec.md R116): the fields of a command word, a
frame as the bytes that decode to its message, and both directions put together for every instruction. -/

namespace Sys2Proof.Machine

/-! ### The fields of a command word (R80) -/

theorem byteAt_packWord (b0 b1 b2 b3 : Byte) :
    byteAt (packWord b0 b1 b2 b3) 0 = b0 ∧ byteAt (packWord b0 b1 b2 b3) 8 = b1 ∧
      byteAt (packWord b0 b1 b2 b3) 16 = b2 ∧ byteAt (packWord b0 b1 b2 b3) 24 = b3 := by
  rw [packWord_eq_append]
  unfold byteAt
  refine ⟨?_, ?_, ?_, ?_⟩ <;> ext i hi <;> grind

@[simp] theorem cmdOp_cmdWord (op dst kind : Byte) : cmdOp (cmdWord op dst kind) = op := by
  obtain ⟨hop, -⟩ := byteAt_packWord op dst kind 0
  exact hop

@[simp] theorem cmdDst_cmdWord (op dst kind : Byte) : cmdDst (cmdWord op dst kind) = dst := by
  obtain ⟨-, hdst, -⟩ := byteAt_packWord op dst kind 0
  exact hdst

@[simp] theorem cmdKind_cmdWord (op dst kind : Byte) : cmdKind (cmdWord op dst kind) = kind := by
  obtain ⟨-, -, hkind, -⟩ := byteAt_packWord op dst kind 0
  exact hkind

/-! ### The instructions (R83, R94) -/

/-- The frame of a named kind decodes to that kind's instruction. -/
theorem decode_encodeKind {p : ParamSet} (hdistinct : p.kindCodes.distinct = true) (k : Kind) (src dst : Byte)
    {m : List Byte} (hm : messageOk m = true) : decode p (encodeKind p k src dst m) = .ok (instrOfKind k src dst m) :=
  decode_frame_of_kind k hdistinct (decodeFrame_frameOf p.chkAlg (of_decide_eq_true hm))

/-- Settles O1: a command by the fields of its word, a frame by the round trip of the codec and the distinct codes. -/
theorem decodeInvertsEncode : Obligations.DecodeInvertsEncode := by
  intro p i hdistinct hwf
  cases i with
  | kindPing => exact decode_encodeKind hdistinct .ping _ _ hwf
  | kindPingReply => exact decode_encodeKind hdistinct .pingReply _ _ hwf
  | kindAckOk => exact decode_encodeKind hdistinct .ackOk _ _ hwf
  | kindAckNok => exact decode_encodeKind hdistinct .ackNok _ _ hwf
  | kindSleep => exact decode_encodeKind hdistinct .sleep _ _ hwf
  | kindResetSoft => exact decode_encodeKind hdistinct .resetSoft _ _ hwf
  | kindResetHard => exact decode_encodeKind hdistinct .resetHard _ _ hwf
  | kindReadReg => exact decode_encodeKind hdistinct .readReg _ _ hwf
  | kindReadReply => exact decode_encodeKind hdistinct .readReply _ _ hwf
  | kindWriteReg => exact decode_encodeKind hdistinct .writeReg _ _ hwf
  | kindGetInfo => exact decode_encodeKind hdistinct .getInfo _ _ hwf
  | kindInfoReply => exact decode_encodeKind hdistinct .infoReply _ _ hwf
  | kindSync => exact decode_encodeKind hdistinct .sync _ _ hwf
  | _ => simp [encode, decode, decodeCmd]

/-! ### The frames that decode (R116) -/

/-- Six bytes or more are a header of five, a message and a last byte. -/
theorem frame_bytes {b : List Byte} (h : 6 ≤ b.length) :
    b.take (b.length - 1) =
        [b.getD 0 0, b.getD 1 0, b.getD 2 0, b.getD 3 0, b.getD 4 0] ++ (b.drop 5).take (b.length - 6) ∧
      b = b.take (b.length - 1) ++ [b.getD (b.length - 1) 0] := by
  match b, h with
  | b0 :: b1 :: b2 :: b3 :: b4 :: rest, h =>
    obtain rfl | ⟨m, last, rfl⟩ := List.eq_nil_or_concat rest
    · simp at h
    · simp

/-- What decodes is the frame of its message. -/
theorem frameOf_of_decodeFrame_ok {alg : ChkAlg} {b : List Byte} {msg : Message} (h : decodeFrame alg b = .ok msg) :
    msg.m.length ≤ 249 ∧ b = frameOf alg msg := by
  have hcount := length_of_decodeFrame_ok h
  have hwhole := h
  simp only [decodeFrame, ite_error_eq_ok_iff, not_not] at h
  obtain ⟨-, hsoh, -, -, hnotShort, hnotLong, -, -⟩ := h
  have hlen : b.length = (b.getD 1 0).toNat := by omega
  have hbyte : (b.getD 1 0).toNat < 256 := (b.getD 1 0).isLt
  rw [decodeFrame_of_whole hsoh (by omega) hlen, ite_error_eq_ok_iff, not_not] at hwhole
  obtain ⟨hsum, hmsg⟩ := hwhole
  have hLEN : b.getD 1 0 = lenByte (6 + msg.m.length) :=
    BitVec.eq_of_toNat_eq (by simp only [lenByte, BitVec.toNat_ofNat]; omega)
  obtain ⟨hhead, hlast⟩ := frame_bytes (b := b) (by omega)
  have hframeHead : b.take (b.length - 1) = frameHead msg := by
    rw [hhead, hsoh, hLEN, ← Except.ok.inj hmsg]
    rfl
  exact ⟨by omega, by rw [hlast, hsum, hframeHead, frameOf]⟩

/-- Settles O8: what decodes is its message's frame, and that frame decodes to it. -/
theorem decodeAcceptsExactlyFrames : Obligations.DecodeAcceptsExactlyFrames := by
  refine fun alg b msg => ⟨frameOf_of_decodeFrame_ok, ?_⟩
  rintro ⟨hlen, rfl⟩
  exact decodeFrame_frameOf alg hlen

end Sys2Proof.Machine
end

section
/-! PROOFS. What each part of the engine can do, one case list each: an instruction's meaning, a received message, a host
write, and the link's and the timer's events (20_memory.md R66, 41_transport.md R141, R152 to R160). Every later proof about
all instructions or all events goes through these. -/

namespace Sys2Proof.Machine

/-! ### Instructions -/

/-- Everything an instruction's meaning can do to the state it runs in. -/
inductive ExecOutcome (i : Instr) (s : State) : State → Prop where
  /-- The command ends with an error (R241). -/
  | raised (e : ErrCode) : ExecOutcome i s (s.raise e)
  /-- The command ends with a RESULT and writes nothing else: CHECKSUM, PING_LATEST (R121, R184). -/
  | computed (r : Word) : ExecOutcome i s (State.complete { s with result := r })
  /-- ENCODE stores a frame in FRAMEBUF (R122). -/
  | encoded (dst kind : Byte) (f : List Byte) (r : Word) (hi : i = .encode dst kind) :
      ExecOutcome i s (State.complete { s.store .framebuf f with result := r })
  /-- DECODE records a message (R123). -/
  | decoded (msg : Message) (r : Word) (hi : i = .decode) :
      ExecOutcome i s (State.complete { s.recordMessage msg with result := r })
  /-- FLUSH drops the received bytes (R165). -/
  | flushed (r : Word) : ExecOutcome i s (State.complete { s with result := r, pb := [], fifo := [] })
  /-- A frame is queued; only PING awaits PING's check (R156, R182). -/
  | sent (msg : Message) (c : Option ReplyCheck) (hlen : msg.m.length ≤ MAX_M)
      (hping : ∀ d, c = some (.ping d) → i = .ping d) :
      ExecOutcome i s (s.sending (frameOf s.set.chkAlg msg) c)
  /-- A frame is received (R141, R157). -/
  | received (k : Kind) (src dst : Byte) (m : List Byte) (hi : i = instrOfKind k src dst m) :
      ExecOutcome i s (s.receiveMessage (s.messageOf k src dst m))

theorem exchange_outcome {i : Instr} (s : State) (dst kind : Byte) (m : List Byte) (c : ReplyCheck)
    (hping : ∀ d, c = .ping d → i = .ping d) : ExecOutcome i s (s.exchange dst kind m c) := by
  obtain ⟨hlen, h⟩ | ⟨_, h⟩ := exchange_cases s dst kind m c <;> rw [h]
  · exact .sent _ _ hlen fun d hd => hping d (Option.some.inj hd)
  · exact .raised _

theorem sendOnly_outcome {i : Instr} (s : State) (dst kind : Byte) (m : List Byte) :
    ExecOutcome i s (s.sendOnly dst kind m) := by
  obtain ⟨hlen, h⟩ | ⟨_, h⟩ := sendOnly_cases s dst kind m <;> rw [h]
  · exact .sent _ _ hlen nofun
  · exact .raised _

theorem execWriteTyped_outcome {s t : State} {dst : Byte} (h : execWriteTyped dst s = .next t) :
    ExecOutcome (.writeTyped dst) s t := by
  unfold execWriteTyped at h
  split at h
  · cases h
    exact .raised _
  · split at h
    · cases h
      exact .raised _
    · split at h <;> cases h
      · exact .raised _
      · exact exchange_outcome _ _ _ _ _ nofun

theorem exec_outcome {i : Instr} {s t : State} (h : exec i s = .next t) : ExecOutcome i s t := by
  cases i with
  | checksum | pingLatest => cases h; exact .computed _
  | flush => cases h; exact .flushed _
  | encode dst kind =>
    simp only [exec, execEncode] at h
    split at h <;> cases h
    · exact .raised _
    · exact .encoded dst kind _ _ rfl
  | decode =>
    simp only [exec, execDecode] at h
    split at h <;> cases h
    · exact .raised _
    · exact .decoded _ _ rfl
  | read | write | readTyped =>
    simp only [exec, execRead, execWrite, execReadTyped] at h
    split at h <;> cases h
    · exact .raised _
    · exact exchange_outcome _ _ _ _ _ nofun
  | writeTyped dst => exact execWriteTyped_outcome h
  | send | sync => cases h; exact sendOnly_outcome _ _ _ _
  | ping dst => cases h; exact exchange_outcome _ _ _ _ _ fun d hd => by rw [ReplyCheck.ping.inj hd]
  | exchange | resetSoft | resetHard | sleep | getInfo => cases h; exact exchange_outcome _ _ _ _ _ nofun
  | kindPing => cases h; exact .received .ping _ _ _ rfl
  | kindPingReply => cases h; exact .received .pingReply _ _ _ rfl
  | kindAckOk => cases h; exact .received .ackOk _ _ _ rfl
  | kindAckNok => cases h; exact .received .ackNok _ _ _ rfl
  | kindSleep => cases h; exact .received .sleep _ _ _ rfl
  | kindResetSoft => cases h; exact .received .resetSoft _ _ _ rfl
  | kindResetHard => cases h; exact .received .resetHard _ _ _ rfl
  | kindReadReg => cases h; exact .received .readReg _ _ _ rfl
  | kindReadReply => cases h; exact .received .readReply _ _ _ rfl
  | kindWriteReg => cases h; exact .received .writeReg _ _ _ rfl
  | kindGetInfo => cases h; exact .received .getInfo _ _ _ rfl
  | kindInfoReply => cases h; exact .received .infoReply _ _ _ rfl
  | kindSync => cases h; exact .received .sync _ _ _ rfl

/-- No command word is a received frame (R83, R94). -/
theorem decodeCmd_ne_instrOfKind {v : Word} {i : Instr} (h : decodeCmd v = .ok i) (k : Kind) (src dst : Byte)
    (m : List Byte) : i ≠ instrOfKind k src dst m := by
  rintro rfl
  unfold decodeCmd at h
  split at h <;> cases k <;> cases h

/-! ### Received messages (R141, R157) -/

/-- A message is judged by the check the command awaits, or, outside a receive phase or with no check awaited, its frame's
bytes are stored. -/
theorem receiveMessage_cases (s : State) (msg : Message) :
    (∃ c, s.status.phase.receiving = true ∧ s.ctx = some c ∧ s.receiveMessage msg = c.run msg (s.recorded msg)) ∨
    s.receiveMessage msg = s.pushRxAll (frameOf s.set.chkAlg msg) := by
  cases hphase : s.status.phase.receiving with
  | false => exact .inr (receiveMessage_of_not_receiving msg hphase)
  | true =>
    cases hctx : s.ctx with
    | none => exact .inr (by rw [State.receiveMessage, if_pos hphase, hctx])
    | some c => exact .inl ⟨c, rfl, rfl, receiveMessage_of_receiving msg hphase hctx⟩

/-- Storing bytes one after the other keeps as many as the FIFO has room for, and sets OVR if one is lost (R141). -/
theorem pushRxAll_eq (s : State) (bs : List Byte) :
    s.pushRxAll bs =
      { s with
        fifo := s.fifo ++ bs.take (s.set.rxFifoDepth - s.fifo.length)
        status := { s.status with
          ovr := s.status.ovr || (!bs.isEmpty && decide (s.set.rxFifoDepth < s.fifo.length + bs.length)) } } := by
  induction bs generalizing s with
  | nil => simp [State.pushRxAll]
  | cons b bs ih =>
    rw [State.pushRxAll, ih]
    obtain ⟨hroom, h⟩ | ⟨hfull, h⟩ := pushRx_cases s b <;> rw [h]
    · have htake : (b :: bs).take (s.set.rxFifoDepth - s.fifo.length) =
          b :: bs.take (s.set.rxFifoDepth - (s.fifo.length + 1)) := by
        rw [show s.set.rxFifoDepth - s.fifo.length = s.set.rxFifoDepth - (s.fifo.length + 1) + 1 by omega,
          List.take_succ_cons]
      have hlost : (!bs.isEmpty && decide (s.set.rxFifoDepth < s.fifo.length + 1 + bs.length)) =
          decide (s.set.rxFifoDepth < s.fifo.length + (bs.length + 1)) := by
        cases bs with
        | nil => simpa using hroom
        | cons => simp [Nat.add_assoc, Nat.add_comm 1]
      simp [htake, hlost]
    · have hlost : s.set.rxFifoDepth < s.fifo.length + (bs.length + 1) := by omega
      simp [Nat.sub_eq_zero_of_le hfull, hlost]

/-! ### Host writes (R66) -/

/-- Everything a host write of `v` to the word address `a` can do. -/
inductive HostWriteOutcome (a : BitVec 12) (v : Word) (s : State) : State → Prop where
  /-- CTRL takes IE (R28). -/
  | control : HostWriteOutcome a v s { s with ctrlIE := v.getLsbD 0 }
  /-- STATUS clears the W1C bits written as 1 (R34). -/
  | acknowledged (ha : a = 0x018) : HostWriteOutcome a v s { s with status := s.status.writeOneToClear v }
  /-- CMD starts nothing while BUSY (R159). -/
  | commandRefused (ha : a = 0x00C) (hbusy : s.status.busy = true) :
      HostWriteOutcome a v s { s with status := { s.status with cmderr := true } }
  /-- A protected place keeps its word while BUSY (R160). -/
  | writeRefused (hbusy : s.status.busy = true) :
      HostWriteOutcome a v s { s with status := { s.status with werr := true } }
  /-- CMD starts a command while idle (R158). -/
  | started (ha : a = 0x00C) (hidle : s.status.busy = false) (i : Instr) (t : State) (hi : decodeCmd v = .ok i)
      (ht : exec i (s.accepted v) = .next t) : HostWriteOutcome a v s t
  /-- An illegal command ends at once (R84). -/
  | illegal (ha : a = 0x00C) (hidle : s.status.busy = false) :
      HostWriteOutcome a v s ((s.accepted v).ended .illegalCmd false 0)
  /-- A protected place takes its word while idle (R66). -/
  | written (hidle : s.status.busy = false) (cfg timeout arg0 arg1 : Word) (mem : Memory)
      (hmem : s.mem.wf = true → mem.wf = true) :
      HostWriteOutcome a v s { s with cfg := cfg, timeout := timeout, arg0 := arg0, arg1 := arg1, mem := mem }
  /-- Any other place ignores the write (R64, R66). -/
  | ignored : HostWriteOutcome a v s s

/-- A protected write of registers or of buffer bytes. -/
theorem protect_outcome {a : BitVec 12} {v : Word} (s : State) (cfg timeout arg0 arg1 : Word) (mem : Memory)
    (hmem : s.mem.wf = true → mem.wf = true) :
    HostWriteOutcome a v s
      (s.protect { s with cfg := cfg, timeout := timeout, arg0 := arg0, arg1 := arg1, mem := mem }) := by
  obtain ⟨hbusy, h⟩ | ⟨hidle, h⟩ :=
    protect_cases s { s with cfg := cfg, timeout := timeout, arg0 := arg0, arg1 := arg1, mem := mem } <;> rw [h]
  · exact .writeRefused hbusy
  · exact .written hidle _ _ _ _ _ hmem

theorem writeCmd_outcome {v : Word} {s t : State} (h : writeCmd v s = .next t) : HostWriteOutcome 0x00C v s t := by
  obtain ⟨hbusy, hw⟩ | ⟨hidle, i, hi, hw⟩ | ⟨hidle, _, _, hw⟩ := writeCmd_cases v s <;> rw [hw] at h
  · cases h
    exact .commandRefused rfl hbusy
  · exact .started rfl hidle i t hi h
  · cases h
    exact .illegal rfl hidle

theorem writePlace_outcome {a : BitVec 12} {v : Word} {s t : State} (haligned : a.toNat % 4 = 0)
    (h : writePlace (placeOf a) v s = .next t) : HostWriteOutcome a v s t := by
  cases hplace : placeOf a with
  | cmd =>
    rw [hplace] at h
    rw [addr_of_placeOf_cmd haligned hplace]
    exact writeCmd_outcome h
  | status =>
    rw [hplace] at h
    cases h
    exact .acknowledged (addr_of_placeOf_status haligned hplace)
  | ctrl => rw [hplace] at h; cases h; exact .control
  | cfg | timeout | arg0 | arg1 => rw [hplace] at h; cases h; exact protect_outcome s _ _ _ _ _ id
  | buffer buf index =>
    rw [hplace] at h
    cases buf with
    | rxbuf => cases h; exact .ignored
    | txbuf | framebuf => cases h; exact protect_outcome s _ _ _ _ _ (wf_writeBytes _ _ _)
  | _ => rw [hplace] at h; cases h; exact .ignored

theorem hostWrite_outcome {size : Nat} {a : BitVec 12} {v : Word} {s t : State} (h : hostWrite size a v s = .next t) :
    size = 4 ∧ HostWriteOutcome a v s t := by
  unfold hostWrite at h
  split at h
  case isFalse => cases h
  case isTrue hok =>
    obtain ⟨hsize, haligned⟩ := (hostAccessOk_iff size a).mp hok
    exact ⟨hsize, writePlace_outcome haligned h⟩

/-- A read only shows a word (R65). -/
theorem hostRead_outcome {size : Nat} {a : BitVec 12} {s t : State} (h : hostRead size a s = .next t) :
    ∃ w, t = { s with outputs := s.outputs ++ [.readData w] } := by
  unfold hostRead at h
  split at h <;> cases h
  exact ⟨_, rfl⟩

/-! ### The link and time (R141, R148, R152, R153) -/

/-- The parser ends without a message, or with one that is received. -/
theorem parseAndDeliver_cases {s t : State} (h : parseAndDeliver s = .next t) :
    s.runParser = (t, none) ∨ ∃ u msg, s.runParser = (u, some msg) ∧ t = u.receiveMessage msg := by
  unfold parseAndDeliver at h
  split at h
  · next u hu => cases h; exact .inl hu
  · next u msg hu =>
    rw [runMessage_eq] at h
    cases h
    exact .inr ⟨u, msg, hu, rfl⟩

/-- A received byte is stored, and parsed in the receive phase. -/
theorem rxByte_cases {b : Byte} {s t : State} (h : rxByte b s = .next t) :
    (s.status.phase.receiving = false ∧ t = s.pushRx b) ∨
    (s.status.phase.receiving = true ∧ parseAndDeliver (s.pushRx b) = .next t) := by
  unfold rxByte at h
  rw [pushRx_phase] at h
  split at h
  · next hphase => exact .inr ⟨hphase, h⟩
  · next hphase => cases h; exact .inl ⟨Bool.eq_false_iff.mpr hphase, rfl⟩

/-- The state with the first queued byte on the wire. -/
def State.taken (s : State) (b : Byte) (rest : List Byte) : State :=
  { s with txq := rest, outputs := s.outputs ++ [.txByte b] }

theorem txTake_more {s : State} {b : Byte} {rest : List Byte} (h : s.txq = b :: rest) (hrest : rest ≠ []) :
    txTake s = .next (s.taken b rest) := by
  rw [txTake, h]
  exact if_neg hrest

theorem txTake_last_of_none {s : State} {b : Byte} (h : s.txq = [b]) (hctx : s.ctx = none) :
    txTake s = .next (s.taken b []).complete := by
  have hafter : afterLastByte (s.taken b []) = .next (s.taken b []).complete := by
    rw [afterLastByte, show (s.taken b []).ctx = none from hctx]
  rw [txTake, h]
  exact (if_pos rfl).trans hafter

theorem txTake_last_of_some {s : State} {b : Byte} {c : ReplyCheck} (h : s.txq = [b]) (hctx : s.ctx = some c) :
    txTake s = onNext (parseAndDeliver (s.taken b []).startReceive) State.expireIfZero := by
  have hafter : afterLastByte (s.taken b []) =
      onNext (parseAndDeliver (s.taken b []).startReceive) State.expireIfZero := by
    rw [afterLastByte, show (s.taken b []).ctx = some c from hctx]
  rw [txTake, h]
  exact (if_pos rfl).trans hafter

/-- A byte goes out; the last one ends the command, or starts its receive phase. -/
theorem txTake_cases {s t : State} (h : txTake s = .next t) :
    ∃ b rest, s.txq = b :: rest ∧
      ((rest ≠ [] ∧ t = s.taken b rest) ∨
       (rest = [] ∧ s.ctx = none ∧ t = (s.taken b []).complete) ∨
       ∃ c u, rest = [] ∧ s.ctx = some c ∧ parseAndDeliver (s.taken b []).startReceive = .next u ∧ t = u.expireIfZero) := by
  cases htxq : s.txq with
  | nil => simp [txTake, htxq] at h
  | cons b rest =>
    refine ⟨b, rest, rfl, ?_⟩
    by_cases hrest : rest = []
    · subst hrest
      cases hctx : s.ctx with
      | none =>
        rw [txTake_last_of_none htxq hctx] at h
        cases h
        exact .inr (.inl ⟨rfl, rfl, rfl⟩)
      | some c =>
        rw [txTake_last_of_some htxq hctx] at h
        obtain ⟨u, hu, rfl⟩ := onNext_eq_next h
        exact .inr (.inr ⟨c, u, rfl, rfl, hu, rfl⟩)
    · rw [txTake_more htxq hrest] at h
      cases h
      exact .inl ⟨hrest, rfl⟩

/-- The deadline does not run outside the receive phase, counts down in it, or is over. -/
theorem countDown_cases (s : State) :
    (s.status.phase.receiving = false ∧ s.countDown = s) ∨
    (s.status.phase.receiving = true ∧ s.tmr - 1 ≠ 0 ∧ s.countDown = { s with tmr := s.tmr - 1 }) ∨
    (s.status.phase.receiving = true ∧ s.tmr - 1 = 0 ∧ s.countDown = State.expire { s with tmr := s.tmr - 1 }) := by
  unfold State.countDown
  cases hphase : s.status.phase.receiving with
  | false => exact .inl ⟨rfl, if_neg nofun⟩
  | true =>
    by_cases hover : s.tmr - 1 = 0
    · exact .inr (.inr ⟨rfl, hover, (if_pos rfl).trans (if_pos hover)⟩)
    · exact .inr (.inl ⟨rfl, hover, (if_pos rfl).trans (if_neg hover)⟩)

/-- A tick counts for LATENCY alone before the deadline does. -/
theorem countLatency_eq (s : State) : s.countLatency = { s with latency := s.countLatency.latency } := by
  unfold State.countLatency
  split <;> rfl

end Sys2Proof.Machine
end

section
/-! PROOFS. The parser's run (41_transport.md R142 to R150): it ends, each byte it takes is judged by decoding the candidate
with that byte, and so it delivers only frames and never loses one. -/

namespace Sys2Proof.Machine

/-! ### Taking a byte (R142) -/

/-- `next_byte()` takes the head of `PB`, else of `FIFO`, and changes nothing else. -/
theorem nextByte_eq_some_iff {s r : State} {b : Byte} :
    s.nextByte = some (b, r) ↔
      (s.pb = b :: r.pb ∧ r = { s with pb := r.pb }) ∨
        (s.pb = [] ∧ s.fifo = b :: r.fifo ∧ r = { s with fifo := r.fifo }) := by
  constructor
  · intro h
    obtain ⟨c, pb, hpb, hn⟩ | ⟨c, fifo, hpb, hfifo, hn⟩ | ⟨_, _, hn⟩ := nextByte_cases s <;> rw [hn] at h <;> cases h
    · exact .inl ⟨hpb, rfl⟩
    · exact .inr ⟨hpb, hfifo, rfl⟩
  · rintro (⟨hpb, hr⟩ | ⟨hpb, hfifo, hr⟩)
    · rw [hr]
      simp [State.nextByte, hpb]
    · rw [hr]
      simp [State.nextByte, hpb, hfifo]

theorem nextByte_eq_none_iff {s : State} : s.nextByte = none ↔ s.pb = [] ∧ s.fifo = [] := by
  obtain ⟨c, pb, hpb, hn⟩ | ⟨c, fifo, hpb, hfifo, hn⟩ | ⟨hpb, hfifo, hn⟩ := nextByte_cases s <;> simp [*]

/-- The byte taken heads the stream `S`. -/
theorem nextByte_stream {s t : State} {b : Byte} (h : s.nextByte = some (b, t)) :
    s.pb ++ s.fifo = b :: (t.pb ++ t.fifo) := by
  obtain ⟨hpb, ht⟩ | ⟨hpb, hfifo, ht⟩ := nextByte_eq_some_iff.mp h
  · have hsame : t.fifo = s.fifo := by rw [ht]
    rw [hpb, hsame, List.cons_append]
  · have hsame : t.pb = [] := by rw [ht, hpb]
    rw [hpb, hsame, hfifo, List.nil_append, List.nil_append]

/-- Neither the candidate nor STATUS nor the parameters change. -/
theorem nextByte_keeps {s t : State} {b : Byte} (h : s.nextByte = some (b, t)) :
    t.cbuf = s.cbuf ∧ t.status = s.status ∧ t.params = s.params := by
  obtain ⟨_, ht⟩ | ⟨_, _, ht⟩ := nextByte_eq_some_iff.mp h <;> rw [ht] <;> exact ⟨rfl, rfl, rfl⟩

theorem nextByte_phase {s t : State} {b : Byte} (h : s.nextByte = some (b, t)) : t.status.phase = s.status.phase := by
  obtain ⟨-, hstatus, -⟩ := nextByte_keeps h
  rw [hstatus]

/-! ### The run ends (R149) -/

/-- What bounds the bytes the parser can take: the bytes it holds, squared, then those not yet taken. -/
def State.work (s : State) : Nat :=
  (s.cbuf.length + s.unparsed) * (s.cbuf.length + s.unparsed + 1) + s.unparsed

theorem parseFuel_eq (s : State) : s.parseFuel = s.work + 1 := rfl

/-- A byte held less outweighs any number of bytes to take again. -/
theorem work_decreases {held held' left left' : Nat} (h : held' < held) (hleft : left' ≤ held') :
    held' * (held' + 1) + left' < held * (held + 1) + left := by
  have : (held' + 1) * (held' + 2) ≤ held * (held + 1) := Nat.mul_le_mul h (by omega)
  nlinarith

/-- A byte is dropped for good, with the bytes of its candidate given back, or moves to the candidate. -/
theorem parseByte_lengths (s : State) (b : Byte) :
    (s.parseByte b).1.fifo = s.fifo ∧
      ((s.parseByte b).1.cbuf.length + (s.parseByte b).1.pb.length ≤ s.cbuf.length + s.pb.length ∨
        ((s.parseByte b).1.cbuf.length ≤ s.cbuf.length + 1 ∧ (s.parseByte b).1.pb = s.pb)) := by
  unfold State.parseByte
  split
  case h_1 => exact ⟨rfl, .inl le_rfl⟩
  case h_2 => exact ⟨rfl, .inl le_rfl⟩
  case h_3 =>
    unfold State.parseSoh
    split
    · exact ⟨rfl, .inr ⟨by simp, rfl⟩⟩
    · exact ⟨rfl, .inl le_rfl⟩
  case h_4 =>
    simp only [State.parseHeader]
    split
    · exact ⟨rfl, .inl (by simp)⟩
    · split <;> exact ⟨rfl, .inr ⟨by simp, rfl⟩⟩
  case h_5 =>
    simp only [State.parsePayload]
    split <;> exact ⟨rfl, .inr ⟨by simp, rfl⟩⟩
  case h_6 =>
    unfold State.parseChecksum
    split
    · exact ⟨rfl, .inl (by simp)⟩
    · exact ⟨rfl, .inl (by simp)⟩

theorem parseByte_work {s t : State} {b : Byte} (h : s.nextByte = some (b, t)) : (t.parseByte b).1.work < s.work := by
  obtain ⟨hfifo, hlengths⟩ := parseByte_lengths t b
  obtain ⟨hcbuf, -, -⟩ := nextByte_keeps h
  have hcount := congrArg List.length (nextByte_stream h)
  simp only [List.length_append, List.length_cons] at hcount
  unfold State.work State.unparsed
  rw [hfifo]
  rw [hcbuf] at hlengths
  obtain hless | ⟨hcand, hpb⟩ := hlengths
  · exact work_decreases (by omega) (by omega)
  · rw [hpb]
    obtain hlt | heq := Nat.lt_or_eq_of_le
      (show (t.parseByte b).1.cbuf.length + (t.pb.length + t.fifo.length) ≤
        s.cbuf.length + (s.pb.length + s.fifo.length) by omega)
    · exact work_decreases hlt (by omega)
    · rw [heq]
      omega

/-- Beyond its bound, the fuel does not matter. -/
theorem parse_of_work_lt {fuel fuel' : Nat} {s : State} (h : s.work < fuel) (h' : s.work < fuel') :
    State.parse fuel s = State.parse fuel' s := by
  induction fuel generalizing fuel' s with
  | zero => omega
  | succ fuel ih =>
    obtain ⟨fuel', rfl⟩ := Nat.exists_eq_succ_of_ne_zero (Nat.ne_zero_of_lt h')
    rw [parse_succ, Nat.succ_eq_add_one, parse_succ]
    split
    · split
      · rfl
      · next b t hnext =>
        split
        · rfl
        · next u hu =>
          have hwork : u.work < s.work := by simpa [hu] using parseByte_work hnext
          exact ih (by omega) (by omega)
    · rfl

/-! ### One byte of the run, and induction over it (R148) -/

section Run

variable {s t u : State} {b : Byte} {msg : Message}

theorem runParser_of_empty (hrecv : s.status.phase.receiving = true) (h : s.nextByte = none) :
    s.runParser = (s, none) := by
  rw [State.runParser, parseFuel_eq, parse_succ, if_pos hrecv, h]

theorem runParser_of_kept (hrecv : s.status.phase.receiving = true) (hnext : s.nextByte = some (b, t))
    (h : t.parseByte b = (u, none)) : s.runParser = u.runParser := by
  have hwork : u.work < s.work := by simpa [h] using parseByte_work hnext
  rw [State.runParser, parseFuel_eq, parse_succ, if_pos hrecv, hnext]
  simp only [h]
  exact parse_of_work_lt hwork (Nat.lt_succ_self _)

theorem runParser_of_delivered (hrecv : s.status.phase.receiving = true) (hnext : s.nextByte = some (b, t))
    (h : t.parseByte b = (u, some msg)) : s.runParser = (u, some msg) := by
  rw [State.runParser, parseFuel_eq, parse_succ, if_pos hrecv, hnext]
  simp only [h]

/-- What holds at the start of a run and is kept by every byte holds where the run ends without a message, with nothing
left; and what every delivering byte then gives holds of a delivery. -/
theorem runParser_induction {P : State → Prop} {Q : State → Message → Prop}
    (hkept : ∀ s b t u, P s → s.status.phase.receiving = true → s.nextByte = some (b, t) →
      t.parseByte b = (u, none) → P u)
    (hdelivered : ∀ s b t u msg, P s → s.status.phase.receiving = true → s.nextByte = some (b, t) →
      t.parseByte b = (u, some msg) → Q u msg)
    (s : State) (hrecv : s.status.phase.receiving = true) (hs : P s) :
    (∀ t, s.runParser = (t, none) → P t ∧ t.status.phase.receiving = true ∧ t.pb = [] ∧ t.fifo = []) ∧
      ∀ t msg, s.runParser = (t, some msg) → Q t msg := by
  cases hnext : s.nextByte with
  | none =>
    obtain ⟨hpb, hfifo⟩ := nextByte_eq_none_iff.mp hnext
    rw [runParser_of_empty hrecv hnext]
    refine ⟨fun t ht => ?_, fun t msg ht => by simp at ht⟩
    obtain ⟨rfl, -⟩ := Prod.mk.inj ht
    exact ⟨hs, hrecv, hpb, hfifo⟩
  | some bt =>
    obtain ⟨b, t⟩ := bt
    rcases hbyte : t.parseByte b with ⟨u, _ | msg⟩
    · have hwork : u.work < s.work := by simpa [hbyte] using parseByte_work hnext
      have hrecvU : u.status.phase.receiving = true := by
        simpa [hbyte] using parseByte_receiving t b (by rwa [nextByte_phase hnext])
      rw [runParser_of_kept hrecv hnext hbyte]
      exact runParser_induction hkept hdelivered u hrecvU (hkept s b t u hs hrecv hnext hbyte)
    · rw [runParser_of_delivered hrecv hnext hbyte]
      refine ⟨fun v hv => by simp at hv, fun v m hv => ?_⟩
      simp only [Prod.mk.injEq, Option.some.injEq] at hv
      obtain ⟨rfl, rfl⟩ := hv
      exact hdelivered s b t u msg hs hrecv hnext hbyte
termination_by s.work

end Run

/-! ### What the run changes (R148) -/

/-- From `s` to `t` only `S`, the candidate, the phase, CHKSEEN and LENSEEN have changed. -/
def State.ParsedTo (s t : State) : Prop :=
  t = { s with
    pb := t.pb
    fifo := t.fifo
    cbuf := t.cbuf
    status := { s.status with
      phase := t.status.phase
      chkseen := t.status.chkseen
      lenseen := t.status.lenseen } }

theorem State.ParsedTo.trans {s t u : State} (hst : s.ParsedTo t) (htu : t.ParsedTo u) : s.ParsedTo u := by
  unfold State.ParsedTo at *
  rw [htu, hst]

section ParsedTo

variable {s t : State}

theorem State.ParsedTo.params (h : s.ParsedTo t) : t.params = s.params := by rw [h]
theorem State.ParsedTo.busy (h : s.ParsedTo t) : t.status.busy = s.status.busy := by rw [h]
theorem State.ParsedTo.done (h : s.ParsedTo t) : t.status.done = s.status.done := by rw [h]
theorem State.ParsedTo.nok (h : s.ParsedTo t) : t.status.nok = s.status.nok := by rw [h]
theorem State.ParsedTo.err (h : s.ParsedTo t) : t.status.err = s.status.err := by rw [h]
theorem State.ParsedTo.prValid (h : s.ParsedTo t) : t.status.prValid = s.status.prValid := by rw [h]
theorem State.ParsedTo.result (h : s.ParsedTo t) : t.result = s.result := by rw [h]
theorem State.ParsedTo.rxhdr (h : s.ParsedTo t) : t.rxhdr = s.rxhdr := by rw [h]
theorem State.ParsedTo.pingrec (h : s.ParsedTo t) : t.pingrec = s.pingrec := by rw [h]
theorem State.ParsedTo.mem (h : s.ParsedTo t) : t.mem = s.mem := by rw [h]
theorem State.ParsedTo.txq (h : s.ParsedTo t) : t.txq = s.txq := by rw [h]
theorem State.ParsedTo.tmr (h : s.ParsedTo t) : t.tmr = s.tmr := by rw [h]
theorem State.ParsedTo.ctx (h : s.ParsedTo t) : t.ctx = s.ctx := by rw [h]

end ParsedTo

theorem parsedTo_byte {s t : State} {b : Byte} (h : s.nextByte = some (b, t)) : s.ParsedTo (t.parseByte b).1 := by
  have htaken : s.ParsedTo t := by
    obtain ⟨_, ht⟩ | ⟨_, _, ht⟩ := nextByte_eq_some_iff.mp h <;> rw [ht] <;> rfl
  have hbyte : t.ParsedTo (t.parseByte b).1 := by
    have hframe := parseByte_frame t b
    obtain ⟨hfifo, -⟩ := parseByte_lengths t b
    unfold State.ParsedTo
    rw [hfifo]
    exact hframe
  exact htaken.trans hbyte

theorem runParser_parsedTo {s t : State} {r : Option Message} (hrecv : s.status.phase.receiving = true)
    (h : s.runParser = (t, r)) : s.ParsedTo t ∧ t.status.phase.receiving = true := by
  obtain ⟨hnone, hsome⟩ := runParser_induction (P := s.ParsedTo)
    (Q := fun t _ => s.ParsedTo t ∧ t.status.phase.receiving = true)
    (fun r b t u hr _ hnext hbyte => by
      have hstep := parsedTo_byte hnext
      rw [hbyte] at hstep
      exact hr.trans hstep)
    (fun r b t u msg hr hrecv hnext hbyte => by
      have hstep := parsedTo_byte hnext
      have hphase := parseByte_receiving t b (by rwa [nextByte_phase hnext])
      rw [hbyte] at hstep hphase
      exact ⟨hr.trans hstep, hphase⟩) s hrecv rfl
  cases r with
  | none =>
    obtain ⟨hto, hphase, -⟩ := hnone t h
    exact ⟨hto, hphase⟩
  | some msg => exact hsome t msg h

/-- A run that delivers nothing has taken every byte. -/
theorem runParser_empties {s t : State} (hrecv : s.status.phase.receiving = true) (h : s.runParser = (t, none)) :
    t.pb = [] ∧ t.fifo = [] := by
  obtain ⟨hnone, -⟩ := runParser_induction (P := fun _ => True) (Q := fun _ _ => True)
    (fun _ _ _ _ _ _ _ _ => trivial) (fun _ _ _ _ _ _ _ _ _ => trivial) s hrecv trivial
  obtain ⟨-, -, hempty⟩ := hnone t h
  exact hempty

/-- Settles O51: the bound exceeds the work (`parse_of_work_lt`), which each byte lowers; the rest is the run byte by
byte. -/
theorem parserStops : Obligations.ParserStops := by
  refine ⟨fun s fuel hfuel => parse_of_work_lt hfuel (Nat.lt_succ_self _), fun s hrecv => ?_⟩
  obtain ⟨hto, hphase⟩ := runParser_parsedTo hrecv (s := s) rfl
  refine ⟨fun hpb hfifo => runParser_of_empty hrecv (nextByte_eq_none_iff.mpr ⟨hpb, hfifo⟩), fun b r hnext => ?_,
    fun hnone => runParser_empties hrecv (Prod.ext rfl hnone), hphase, hto⟩
  have hnext := nextByte_eq_some_iff.mpr hnext
  exact ⟨fun _ => runParser_of_kept hrecv hnext, fun _ _ => runParser_of_delivered hrecv hnext⟩

end Sys2Proof.Machine
end

section
/-! PROOFS. The parser as a decoder of growing candidates (41_transport.md R143 to R147): a byte is kept while the candidate
is a frame cut short, delivers when it makes the candidate a frame, and is given back when it makes the candidate anything
else. So only frames are delivered, and no frame of the stream is lost (R150). -/

namespace Sys2Proof.Machine

/-! ### One byte, judged by `decode` -/

/-- What one byte does to a candidate of its phase's shape. -/
inductive ParseOutcome (s : State) (b : Byte) : State × Option Message → Prop where
  /-- The candidate is a frame cut short: it waits for more. -/
  | kept (u : State) (hdecode : decodeFrame s.set.chkAlg (s.cbuf ++ [b]) = .error .messageIncomplete)
      (hcbuf : u.cbuf = s.cbuf ++ [b]) (hpb : u.pb = s.pb) (hok : u.candidateOk) : ParseOutcome s b (u, none)
  /-- The candidate is no frame: all its bytes but the first are given back. -/
  | dropped (u : State) (e : ErrCode) (hdecode : decodeFrame s.set.chkAlg (s.cbuf ++ [b]) = .error e)
      (he : e ≠ .messageIncomplete) (hcbuf : u.cbuf = []) (hpb : u.pb = (s.cbuf ++ [b]).drop 1 ++ s.pb)
      (hok : u.candidateOk) : ParseOutcome s b (u, none)
  /-- The candidate is a frame. -/
  | delivered (msg : Message) (hdecode : decodeFrame s.set.chkAlg (s.cbuf ++ [b]) = .ok msg) :
      ParseOutcome s b ({ s with cbuf := [] }, some msg)

section Phases

variable {s : State} {b : Byte}

theorem candidateOk_of_awaitSoh (h : s.status.phase = .awaitSoh) : s.candidateOk ↔ s.cbuf = [] := by
  rw [State.candidateOk, h]

theorem candidateOk_of_awaitHeader (h : s.status.phase = .awaitHeader) :
    s.candidateOk ↔ s.cbuf.head? = some SOH ∧ s.cbuf.length ≤ 3 ∧ (2 ≤ s.cbuf.length → 6 ≤ (s.cbuf.getD 1 0).toNat) := by
  rw [State.candidateOk, h]
  rfl

theorem candidateOk_of_awaitPayload (h : s.status.phase = .awaitPayload) :
    s.candidateOk ↔ s.cbuf.head? = some SOH ∧ 4 ≤ s.cbuf.length ∧ s.cbuf.length + 2 ≤ (s.cbuf.getD 1 0).toNat := by
  rw [State.candidateOk, h]
  rfl

theorem candidateOk_of_awaitChecksum (h : s.status.phase = .awaitChecksum) :
    s.candidateOk ↔ s.cbuf.head? = some SOH ∧ 5 ≤ s.cbuf.length ∧ s.cbuf.length + 1 = (s.cbuf.getD 1 0).toNat := by
  rw [State.candidateOk, h]
  rfl

theorem parse_outcome_of_awaitSoh (h : s.status.phase = .awaitSoh) (hok : s.candidateOk) :
    ParseOutcome s b (s.parseByte b) := by
  have hempty := (candidateOk_of_awaitSoh h).mp hok
  rw [parseByte_of_awaitSoh h]
  by_cases hb : b = SOH
  · rw [parseSoh_soh hb]
    refine .kept _ ?_ (by simp [hempty]) rfl ((candidateOk_of_awaitHeader rfl).mpr (by simp [hb]))
    exact decodeFrame_of_soh_alone (by simp [hempty]) (by simp [hempty, hb])
  · rw [parseSoh_noise hb]
    refine .dropped _ .badSoh ?_ nofun hempty (by simp [hempty]) hok
    exact decodeFrame_of_bad_soh (by simp) (by simpa [hempty] using hb)

theorem getD_zero_append (xs : List Byte) (h : s.cbuf.head? = some SOH) : (s.cbuf ++ xs).getD 0 0 = SOH := by
  cases hc : s.cbuf <;> simp_all

theorem length_pos_of_head (h : s.cbuf.head? = some SOH) : 1 ≤ s.cbuf.length := by
  cases hc : s.cbuf <;> simp_all

/-- A candidate that begins with SOH and has fewer bytes than its LEN, itself 6 or more, is a frame cut short. -/
theorem decodeFrame_of_begun {alg : ChkAlg} (hsoh : s.cbuf.head? = some SOH) (hmin : 6 ≤ ((s.cbuf ++ [b]).getD 1 0).toNat)
    (hlen : s.cbuf.length + 1 < ((s.cbuf ++ [b]).getD 1 0).toNat) :
    decodeFrame alg (s.cbuf ++ [b]) = .error .messageIncomplete := by
  have := length_pos_of_head hsoh
  exact decodeFrame_of_short (by simp; omega) (getD_zero_append _ hsoh) hmin (by simpa using hlen)

theorem parse_outcome_of_awaitHeader (h : s.status.phase = .awaitHeader) (hok : s.candidateOk) :
    ParseOutcome s b (s.parseByte b) := by
  obtain ⟨hsoh, hmax, hmin⟩ := (candidateOk_of_awaitHeader h).mp hok
  have hpos := length_pos_of_head hsoh
  have hhead : (s.cbuf ++ [b]).head? = some SOH := by rw [List.head?_append, hsoh]; rfl
  rw [parseByte_of_awaitHeader h]
  by_cases hbad : s.cbuf.length = 1 ∧ b.toNat < 6
  · obtain ⟨hone, hb⟩ := hbad
    have hlen : (s.cbuf ++ [b]).getD 1 0 = b := by simp [hone]
    rw [parseHeader_bad_len hone hb]
    refine .dropped _ .badLen ?_ nofun rfl rfl ((candidateOk_of_awaitSoh rfl).mpr rfl)
    exact decodeFrame_of_len_below_min (by simp; omega) (getD_zero_append _ hsoh) (by rwa [hlen])
  · have hLEN : 6 ≤ ((s.cbuf ++ [b]).getD 1 0).toNat := by
      obtain hone | htwo := Nat.eq_or_lt_of_le hpos
      · simp [← hone]; omega
      · rw [List.getD_append _ _ _ _ htwo]
        exact hmin htwo
    have hdecode := decodeFrame_of_begun (alg := s.set.chkAlg) hsoh hLEN (by omega)
    rw [parseHeader_other (by omega)]
    split
    case isTrue hthree =>
      refine .kept _ hdecode rfl rfl ((candidateOk_of_awaitPayload rfl).mpr ⟨hhead, by simp [hthree], ?_⟩)
      rw [List.length_append, hthree]
      exact hLEN
    case isFalse hthree =>
      refine .kept _ hdecode rfl rfl ((candidateOk_of_awaitHeader (s := { s with cbuf := s.cbuf ++ [b] }) h).mpr ?_)
      exact ⟨hhead, by rw [List.length_append, List.length_singleton]; omega, fun _ => hLEN⟩

theorem parse_outcome_of_awaitPayload (h : s.status.phase = .awaitPayload) (hok : s.candidateOk) :
    ParseOutcome s b (s.parseByte b) := by
  obtain ⟨hsoh, hfour, hLEN⟩ := (candidateOk_of_awaitPayload h).mp hok
  have hhead : (s.cbuf ++ [b]).head? = some SOH := by rw [List.head?_append, hsoh]; rfl
  have hsame : (s.cbuf ++ [b]).getD 1 0 = s.cbuf.getD 1 0 := List.getD_append _ _ _ _ (by omega)
  have hdecode := decodeFrame_of_begun (alg := s.set.chkAlg) (b := b) hsoh (by rw [hsame]; omega) (by rw [hsame]; omega)
  rw [parseByte_of_awaitPayload h, parsePayload_eq (by omega)]
  split
  case isTrue hlast =>
    refine .kept _ hdecode rfl rfl ((candidateOk_of_awaitChecksum rfl).mpr ⟨hhead, ?_, ?_⟩)
    · simpa using hfour
    · simp only [hsame, ← hlast, List.length_append, List.length_singleton]
  case isFalse hmore =>
    refine .kept _ hdecode rfl rfl ((candidateOk_of_awaitPayload (s := { s with cbuf := s.cbuf ++ [b] }) h).mpr ?_)
    refine ⟨hhead, ?_, ?_⟩ <;> simp only [hsame, List.length_append, List.length_singleton] <;> omega

/-- A whole candidate is judged by its last byte; what it carries is the candidate's message. -/
theorem decodeFrame_of_complete {alg : ChkAlg} (hsoh : s.cbuf.head? = some SOH) (hfive : 5 ≤ s.cbuf.length)
    (hLEN : s.cbuf.length + 1 = (s.cbuf.getD 1 0).toNat) :
    decodeFrame alg (s.cbuf ++ [b]) = if b = checksum alg s.cbuf then .ok s.candidate else .error .checksumError := by
  have hbyte : ∀ i < 5, (s.cbuf ++ [b]).getD i 0 = s.cbuf.getD i 0 := fun i hi =>
    List.getD_append _ _ _ _ (by omega)
  have hlen : (s.cbuf ++ [b]).length - 1 = s.cbuf.length := by simp
  have hm : ((s.cbuf ++ [b]).drop 5).take ((s.cbuf ++ [b]).length - 6) = s.cbuf.drop 5 := by
    rw [List.drop_append_of_le_length hfive, List.take_left' (by simp)]
  rw [decodeFrame_of_whole (getD_zero_append _ hsoh) (by rw [List.length_append, List.length_singleton]; omega)
    (by rw [hbyte 1 (by decide), List.length_append, List.length_singleton, hLEN]), hlen, hm, hbyte 2 (by decide),
    hbyte 3 (by decide), hbyte 4 (by decide)]
  simp [State.candidate]

theorem parse_outcome_of_awaitChecksum (h : s.status.phase = .awaitChecksum) (hok : s.candidateOk) :
    ParseOutcome s b (s.parseByte b) := by
  obtain ⟨hsoh, hfive, hLEN⟩ := (candidateOk_of_awaitChecksum h).mp hok
  have hdecode := decodeFrame_of_complete (alg := s.set.chkAlg) (b := b) hsoh hfive hLEN
  rw [parseByte_of_awaitChecksum h]
  by_cases hsum : b = checksum s.set.chkAlg s.cbuf
  · rw [parseChecksum_right hsum]
    rw [if_pos hsum] at hdecode
    exact .delivered _ hdecode
  · rw [parseChecksum_wrong hsum]
    rw [if_neg hsum] at hdecode
    exact .dropped _ .checksumError hdecode nofun rfl rfl ((candidateOk_of_awaitSoh rfl).mpr rfl)

end Phases

/-- In every receive phase `decode` of the candidate with its new byte says what the byte does. -/
theorem parse_outcome (s : State) (b : Byte) (hrecv : s.status.phase.receiving = true) (hok : s.candidateOk) :
    ParseOutcome s b (s.parseByte b) := by
  cases hphase : s.status.phase with
  | idle | tx => simp [hphase, Phase.receiving] at hrecv
  | awaitSoh => exact parse_outcome_of_awaitSoh hphase hok
  | awaitHeader => exact parse_outcome_of_awaitHeader hphase hok
  | awaitPayload => exact parse_outcome_of_awaitPayload hphase hok
  | awaitChecksum => exact parse_outcome_of_awaitChecksum hphase hok

/-- The shape of a candidate is a matter of its phase and its bytes. -/
theorem candidateOk_congr {s t : State} (hphase : t.status.phase = s.status.phase) (hcbuf : t.cbuf = s.cbuf)
    (h : s.candidateOk) : t.candidateOk := by
  unfold State.candidateOk State.candLen at *
  rw [hphase, hcbuf]
  exact h

/-- The candidate and the bytes the parser has yet to take, in the order they came. -/
def State.stream (s : State) : List Byte := s.cbuf ++ (s.pb ++ s.fifo)

/-- What one byte of the run does to the stream: it stays, its first byte is dropped, or a frame at its front is taken. -/
inductive RunOutcome (s : State) : State × Option Message → Prop where
  | kept (u : State) (hstream : u.stream = s.stream) (hok : u.candidateOk) (hparams : u.params = s.params)
      (hdecode : decodeFrame s.set.chkAlg u.cbuf = .error .messageIncomplete) : RunOutcome s (u, none)
  | dropped (u : State) (c rest : List Byte) (e : ErrCode) (hlen : c.length = s.cbuf.length + 1)
      (hsplit : s.stream = c ++ rest) (hdecode : decodeFrame s.set.chkAlg c = .error e) (he : e ≠ .messageIncomplete)
      (hstream : u.stream = s.stream.drop 1) (hcbuf : u.cbuf = []) (hok : u.candidateOk) (hparams : u.params = s.params) :
      RunOutcome s (u, none)
  | delivered (u : State) (msg : Message) (c : List Byte) (hdecode : decodeFrame s.set.chkAlg c = .ok msg)
      (hsplit : s.stream = c ++ (u.pb ++ u.fifo)) (hcbuf : u.cbuf = []) : RunOutcome s (u, some msg)

theorem run_outcome {s t : State} {b : Byte} {r : State × Option Message} (hrecv : s.status.phase.receiving = true)
    (hok : s.candidateOk) (hnext : s.nextByte = some (b, t)) (hbyte : t.parseByte b = r) : RunOutcome s r := by
  obtain ⟨hcbuf, hstatus, hparams⟩ := nextByte_keeps hnext
  have hphase : t.status.phase = s.status.phase := by rw [hstatus]
  have hsplit : s.stream = t.cbuf ++ [b] ++ (t.pb ++ t.fifo) := by
    rw [State.stream, nextByte_stream hnext, hcbuf, List.append_assoc, List.singleton_append]
  have hset : t.set = s.set := congrArg Params.set hparams
  have hkeeps : r.1.params = s.params ∧ r.1.fifo = t.fifo := by
    obtain ⟨hfifo, -⟩ := parseByte_lengths t b
    have hto := parsedTo_byte hnext
    rw [hbyte] at hfifo hto
    exact ⟨by rw [hto], hfifo⟩
  obtain ⟨hparamsU, hfifo⟩ := hkeeps
  have houtcome := parse_outcome t b (by rwa [hphase]) (candidateOk_congr hphase hcbuf hok)
  rw [hbyte] at houtcome
  cases houtcome with
  | kept u hdecode hcand hpb hokU =>
    refine .kept u ?_ hokU hparamsU (by rw [hcand, ← hset]; exact hdecode)
    rw [hsplit, State.stream, hcand, hpb, hfifo]
  | dropped u e hdecode he hcand hpb hokU =>
    refine .dropped u (t.cbuf ++ [b]) _ e (by simp [hcbuf]) hsplit (by rw [← hset]; exact hdecode) he ?_ hcand hokU hparamsU
    rw [hsplit, List.drop_append_of_le_length (by simp), State.stream, hcand, hpb, hfifo, List.nil_append,
      List.append_assoc]
  | delivered msg hdecode => exact .delivered _ msg (t.cbuf ++ [b]) (by rw [← hset]; exact hdecode) hsplit rfl

/-! ### Only frames are delivered (R146, R147) -/

/-- Settles O52: the bytes dropped before the delivered candidate, the candidate, and the bytes left make up the stream. -/
theorem parserDeliversOnlyFrames : Obligations.ParserDeliversOnlyFrames := by
  intro s t msg hok hrecv hrun
  obtain ⟨-, hdelivered⟩ := runParser_induction
    (P := fun u => u.candidateOk ∧ u.params = s.params ∧ ∃ before, s.stream = before ++ u.stream)
    (Q := fun u msg => ∃ before f, s.stream = before ++ f ++ (u.pb ++ u.fifo) ∧
      decodeFrame s.set.chkAlg f = .ok msg ∧ u.cbuf = [])
    (fun u b v w hu hrecvU hnext hbyte => by
      obtain ⟨hokU, hparams, before, hbefore⟩ := hu
      cases run_outcome hrecvU hokU hnext hbyte with
      | kept _ hstream hokW hparamsW => exact ⟨hokW, hparamsW.trans hparams, before, by rw [hbefore, hstream]⟩
      | dropped _ c rest e hlen hsplit hdecode he hstream hcbuf hokW hparamsW =>
        refine ⟨hokW, hparamsW.trans hparams, before ++ u.stream.take 1, ?_⟩
        rw [hbefore, hstream, List.append_assoc, List.take_append_drop])
    (fun u b v w msg hu hrecvU hnext hbyte => by
      obtain ⟨hokU, hparams, before, hbefore⟩ := hu
      cases run_outcome hrecvU hokU hnext hbyte with
      | delivered _ _ c hdecode hsplit hcbuf =>
        exact ⟨before, c, by rw [hbefore, hsplit, List.append_assoc], by rwa [State.set, ← hparams], hcbuf⟩)
    s hrecv ⟨hok, rfl, [], rfl⟩
  obtain ⟨before, f, hstream, hdecode, hcbuf⟩ := hdelivered t msg hrun
  exact ⟨before, f, by rw [List.append_assoc, ← hstream, State.stream], hdecode, hcbuf⟩

/-! ### No frame is lost (R150) -/

/-- A byte list that goes along with a frame is the frame cut short, the frame, or the frame with more behind it. -/
theorem decodeFrame_along {alg : ChkAlg} {f after c rest : List Byte} {msg : Message}
    (hf : decodeFrame alg f = .ok msg) (h : c ++ rest = f ++ after) :
    (c.length < f.length ∧ decodeFrame alg c = .error .messageIncomplete) ∨ (c = f ∧ rest = after) ∨
      (f.length < c.length ∧ decodeFrame alg c = .error .badLen) := by
  obtain ⟨hm, rfl⟩ := frameOf_of_decodeFrame_ok hf
  obtain hlt | heq | hgt := Nat.lt_trichotomy c.length (frameOf alg msg).length
  · have hcut : c = (frameOf alg msg).take c.length := by
      rw [← List.take_append_of_le_length hlt.le, ← h, List.take_left]
    exact .inl ⟨hlt, by rw [hcut]; exact decodeFrame_take_frameOf alg hm hlt⟩
  · exact .inr (.inl (List.append_inj h heq))
  · have hlonger : c = frameOf alg msg ++ c.drop (frameOf alg msg).length := by
      have hfront : c.take (frameOf alg msg).length = frameOf alg msg := by
        rw [← List.take_append_of_le_length hgt.le, h, List.take_left]
      conv_lhs => rw [← List.take_append_drop (frameOf alg msg).length c, hfront]
    refine .inr (.inr ⟨hgt, ?_⟩)
    have hLEN : (c.getD 1 0).toNat = (frameOf alg msg).length := by
      rw [hlonger]
      exact frameOf_len alg hm
    exact decodeFrame_of_long (by rw [hlonger]; rfl) (by rw [hLEN]; simp) (by rwa [hLEN])

/-- What the run keeps while the frame `f` stands in the stream: the bytes before it shrink from the front, and the
candidate is no whole frame. -/
structure Pending (s : State) (before f after : List Byte) (n : Nat) (u : State) : Prop where
  ok : u.candidateOk
  params : u.params = s.params
  pos : n ≤ before.length
  stream : u.stream = before.drop n ++ f ++ after
  cut : decodeFrame s.set.chkAlg u.cbuf = .error .messageIncomplete

section Resync

variable {s u v : State} {before f after : List Byte} {msg got : Message} {n : Nat}

theorem Pending.set_eq (h : Pending s before f after n u) : u.set = s.set := congrArg Params.set h.params

/-- At the frame's own start the candidate is shorter than the frame. -/
theorem Pending.cbuf_lt (h : Pending s before f after before.length u) (hf : decodeFrame s.set.chkAlg f = .ok msg) :
    u.cbuf.length < f.length := by
  have hstream := h.stream
  rw [List.drop_length, List.nil_append] at hstream
  obtain ⟨hlt, -⟩ | ⟨heq, -⟩ | ⟨-, hbad⟩ := decodeFrame_along hf hstream
  · exact hlt
  · simp [← heq, h.cut] at hf
  · simp [h.cut] at hbad

/-- A byte that delivers nothing leaves the frame pending: it is never given up once the parser stands at its start. -/
theorem Pending.byte (h : Pending s before f after n u) (hf : decodeFrame s.set.chkAlg f = .ok msg)
    (hbyte : RunOutcome u (v, none)) : ∃ n', Pending s before f after n' v := by
  cases hbyte with
  | kept _ hstream hok hparams hdecode =>
    exact ⟨n, hok, hparams.trans h.params, h.pos, hstream.trans h.stream, by rwa [← h.set_eq]⟩
  | dropped _ c rest e hlen hsplit hdecode he hstream hcbuf hok hparams =>
    rw [h.set_eq] at hdecode
    have hbefore : n < before.length := by
      refine h.pos.lt_of_ne fun hn => ?_
      subst hn
      have hshort := h.cbuf_lt hf
      have hfront := h.stream
      rw [List.drop_length, List.nil_append, hsplit] at hfront
      obtain ⟨-, hcut⟩ | ⟨rfl, -⟩ | ⟨hlong, -⟩ := decodeFrame_along hf hfront
      · rw [hcut] at hdecode
        exact he (Except.error.inj hdecode).symm
      · simp [hf] at hdecode
      · omega
    refine ⟨n + 1, hok, hparams.trans h.params, hbefore, ?_, by rw [hcbuf]; exact decodeFrame_of_empty rfl⟩
    rw [hstream, h.stream, List.append_assoc, List.drop_append_of_le_length (by rw [List.length_drop]; omega), List.drop_drop,
      List.append_assoc]

/-- A delivery takes the frame, or one that starts before it. -/
theorem Pending.delivered (h : Pending s before f after n u) (hf : decodeFrame s.set.chkAlg f = .ok msg)
    (hbyte : RunOutcome u (v, some got)) :
    (got = msg ∧ v.pb ++ v.fifo = after) ∨
      ∃ b g : List Byte, b.length < before.length ∧ before ++ f ++ after = b ++ g ++ (v.pb ++ v.fifo) ∧
        decodeFrame s.set.chkAlg g = .ok got := by
  cases hbyte with
  | delivered _ _ c hdecode hsplit hcbuf =>
    rw [h.set_eq] at hdecode
    rw [h.stream] at hsplit
    obtain hlt | rfl := h.pos.lt_or_eq
    · refine .inr ⟨before.take n, c, by rw [List.length_take]; omega, ?_, hdecode⟩
      rw [List.append_assoc (before.take n), ← hsplit, ← List.append_assoc, ← List.append_assoc, List.take_append_drop]
    · rw [List.drop_length, List.nil_append] at hsplit
      obtain ⟨-, hcut⟩ | ⟨rfl, hrest⟩ | ⟨-, hbad⟩ := decodeFrame_along hf hsplit.symm
      · simp [hdecode] at hcut
      · rw [hf] at hdecode
        exact .inl ⟨(Except.ok.inj hdecode).symm, hrest⟩
      · simp [hdecode] at hbad

/-- With nothing left to take, a pending frame stands whole in a candidate that started before it, and the deadline gives
all of it back. -/
theorem Pending.expire (h : Pending s before f after n u) (hf : decodeFrame s.set.chkAlg f = .ok msg) (hpb : u.pb = [])
    (hfifo : u.fifo = []) :
    n < before.length ∧ u.cbuf = before.drop n ++ f ++ after ∧
      u.expire.pb ++ u.expire.fifo = before.drop (n + 1) ++ f ++ after := by
  have hcbuf : u.cbuf = before.drop n ++ f ++ after := by
    rw [← h.stream, State.stream, hpb, hfifo, List.append_nil, List.append_nil]
  have hbefore : n < before.length := by
    refine h.pos.lt_of_ne fun hn => ?_
    subst hn
    have hshort := h.cbuf_lt hf
    rw [hcbuf] at hshort
    simp at hshort
  refine ⟨hbefore, hcbuf, ?_⟩
  have hback : u.cbuf.drop 1 = before.drop (n + 1) ++ f ++ after := by
    rw [hcbuf, List.append_assoc, List.drop_append_of_le_length (by rw [List.length_drop]; omega), List.drop_drop,
      List.append_assoc]
  obtain ⟨hphase, -⟩ | ⟨-, hexpire⟩ := expire_cases u
  · have hempty := (candidateOk_of_awaitSoh hphase).mp h.ok
    have hlen := congrArg List.length hcbuf
    simp [hempty] at hlen
    omega
  · rw [hexpire]
    simp [State.ended, hback, hpb, hfifo]

end Resync

/-- Settles O53: the frame stays pending (`Pending`) through the run. -/
theorem resyncInvariant : Obligations.ResyncInvariant := by
  intro s t r before f after msg hphase hcbuf hstream hf hrun
  have hrecv : s.status.phase.receiving = true := by rw [hphase]; rfl
  have hstart : Pending s before f after 0 s :=
    ⟨(candidateOk_of_awaitSoh hphase).mpr hcbuf, rfl, Nat.zero_le _, by rw [State.stream, hcbuf, hstream]; rfl,
      by rw [hcbuf]; exact decodeFrame_of_empty rfl⟩
  obtain ⟨hnone, hsome⟩ := runParser_induction (P := fun u => ∃ n, Pending s before f after n u)
    (fun u b v w ⟨n, hu⟩ hrecvU hnext hbyte => hu.byte hf (run_outcome hrecvU hu.ok hnext hbyte))
    (fun u b v w got ⟨n, hu⟩ hrecvU hnext hbyte => hu.delivered hf (run_outcome hrecvU hu.ok hnext hbyte))
    s hrecv ⟨0, hstart⟩
  rw [hstream]
  constructor
  · rintro got rfl
    exact hsome t got hrun
  · rintro rfl
    obtain ⟨⟨n, hpending⟩, -, hpb, hfifo⟩ := hnone t hrun
    obtain ⟨hbefore, hcand, hexpire⟩ := hpending.expire hf hpb hfifo
    exact ⟨n, hbefore, hcand, hpb, hfifo, hexpire⟩

end Sys2Proof.Machine
end

section
/-! PROOFS. What instructions and events leave alone: the host's registers and the sticky flags (10_state.md R22 to R33, R39,
R40), the buffers (R48 to R50), the ping record (R42, R46), and a running command under the host's accesses (41_transport.md
R161). -/

namespace Sys2Proof.Machine

/-! ### Completion of a reply, in one form -/

/-- However a reply check ends the command, it sets only the ping record, PR_VALID and the completion record (R180). -/
theorem run_eq_ended (c : ReplyCheck) (msg : Message) (s : State) :
    ∃ g v e nok r, c.run msg s =
      State.ended { s with pingrec := g, status := { s.status with prValid := v } } e nok r := by
  obtain ⟨r, g, v, h⟩ | h | h := run_cases c msg s <;> rw [h]
  · exact ⟨g, v, _, _, r, rfl⟩
  · exact ⟨s.pingrec, s.status.prValid, _, _, _, rfl⟩
  · exact ⟨s.pingrec, s.status.prValid, _, _, _, rfl⟩

/-- A received message ends the command with the message recorded, or its frame's bytes go to the FIFO. -/
theorem receiveMessage_eq (s : State) (msg : Message) :
    (∃ g v e nok r, s.receiveMessage msg =
      State.ended { s.recorded msg with pingrec := g, status := { s.status with prValid := v } } e nok r) ∨
    ∃ fifo ovr, (s.status.ovr = true → ovr = true) ∧
      s.receiveMessage msg = { s with fifo := fifo, status := { s.status with ovr := ovr } } := by
  obtain ⟨c, _, _, h⟩ | h := receiveMessage_cases s msg <;> rw [h]
  · exact .inl (run_eq_ended c msg (s.recorded msg))
  · rw [pushRxAll_eq]
    exact .inr ⟨_, _, fun hovr => by rw [hovr]; rfl, rfl⟩

/-! ### The host's registers and the sticky flags -/

/-- The registers that only the host writes, with the parameters, the count of Resets, and the two flags that only a host
write raises. -/
structure Settings where
  params : Params
  ctrlIE : Bool
  cfg : Word
  timeout : Word
  cmd : BitVec 24
  arg0 : Word
  arg1 : Word
  draws : Nat
  cmderr : Bool
  werr : Bool

def State.settings (s : State) : Settings where
  params := s.params
  ctrlIE := s.ctrlIE
  cfg := s.cfg
  timeout := s.timeout
  cmd := s.cmd
  arg0 := s.arg0
  arg1 := s.arg1
  draws := s.draws
  cmderr := s.status.cmderr
  werr := s.status.werr

/-- From `s` to `t` the settings are the same, and OVR has not fallen: all the engine itself does to them. -/
def KeepsSettings (s t : State) : Prop :=
  t.settings = s.settings ∧ (s.status.ovr = true → t.status.ovr = true)

theorem KeepsSettings.refl (s : State) : KeepsSettings s s := ⟨rfl, id⟩

theorem KeepsSettings.trans {s t u : State} (hst : KeepsSettings s t) (htu : KeepsSettings t u) : KeepsSettings s u :=
  ⟨htu.1.trans hst.1, htu.2 ∘ hst.2⟩

theorem keepsSettings_pushRx (s : State) (b : Byte) : KeepsSettings s (s.pushRx b) := by
  obtain ⟨_, h⟩ | ⟨_, h⟩ := pushRx_cases s b <;> rw [h]
  · exact ⟨rfl, id⟩
  · exact ⟨rfl, fun _ => rfl⟩

theorem keepsSettings_receiveMessage (s : State) (msg : Message) : KeepsSettings s (s.receiveMessage msg) := by
  obtain ⟨g, v, e, nok, r, h⟩ | ⟨fifo, ovr, hovr, h⟩ := receiveMessage_eq s msg <;> rw [h]
  · exact ⟨rfl, id⟩
  · exact ⟨rfl, hovr⟩

theorem exec_keepsSettings {i : Instr} {s t : State} (h : exec i s = .next t) : KeepsSettings s t := by
  cases exec_outcome h with
  | received => exact keepsSettings_receiveMessage _ _
  | _ => exact ⟨rfl, id⟩

theorem State.ParsedTo.keepsSettings {s t : State} (h : s.ParsedTo t) : KeepsSettings s t := by
  unfold State.ParsedTo at h
  rw [h]
  exact ⟨rfl, id⟩

theorem parseAndDeliver_keepsSettings {s t : State} (hrecv : s.status.phase.receiving = true)
    (h : parseAndDeliver s = .next t) : KeepsSettings s t := by
  obtain hnone | ⟨u, msg, hsome, rfl⟩ := parseAndDeliver_cases h
  · obtain ⟨hto, -⟩ := runParser_parsedTo hrecv hnone
    exact hto.keepsSettings
  · obtain ⟨hto, -⟩ := runParser_parsedTo hrecv hsome
    exact hto.keepsSettings.trans (keepsSettings_receiveMessage u msg)

theorem keepsSettings_expire (s : State) : KeepsSettings s s.expire := by
  obtain ⟨_, h⟩ | ⟨_, h⟩ := expire_cases s <;> rw [h] <;> exact ⟨rfl, id⟩

theorem keepsSettings_expireIfZero (s : State) : KeepsSettings s s.expireIfZero := by
  unfold State.expireIfZero
  split
  · exact keepsSettings_expire s
  · exact .refl s

theorem rxByte_keepsSettings {b : Byte} {s t : State} (h : rxByte b s = .next t) : KeepsSettings s t := by
  obtain ⟨_, rfl⟩ | ⟨hrecv, hparse⟩ := rxByte_cases h
  · exact keepsSettings_pushRx s b
  · exact (keepsSettings_pushRx s b).trans (parseAndDeliver_keepsSettings (by rwa [pushRx_phase]) hparse)

theorem txTake_keepsSettings {s t : State} (h : txTake s = .next t) : KeepsSettings s t := by
  obtain ⟨b, rest, _, ⟨_, rfl⟩ | ⟨_, _, rfl⟩ | ⟨c, u, _, _, hparse, rfl⟩⟩ := txTake_cases h
  · exact ⟨rfl, id⟩
  · exact ⟨rfl, id⟩
  · have hstart : KeepsSettings s (s.taken b []).startReceive := ⟨rfl, id⟩
    exact (hstart.trans (parseAndDeliver_keepsSettings rfl hparse)).trans (keepsSettings_expireIfZero u)

theorem keepsSettings_tick (s : State) : KeepsSettings s s.countLatency.countDown := by
  have hlatency : KeepsSettings s s.countLatency := by
    rw [countLatency_eq]
    exact ⟨rfl, id⟩
  refine hlatency.trans ?_
  obtain ⟨_, h⟩ | ⟨_, _, h⟩ | ⟨_, _, h⟩ := countDown_cases s.countLatency <;> rw [h]
  · exact .refl _
  · exact ⟨rfl, id⟩
  · exact keepsSettings_expire { s.countLatency with tmr := s.countLatency.tmr - 1 }

/-- No event but a host write and Reset touches the settings or lets a sticky flag fall. -/
theorem respond_keepsSettings {e : Event} {s t : State} (hwrite : ∀ size a v, e ≠ .hostWrite size a v) (hreset : e ≠ .reset)
    (h : respond e s = .next t) : KeepsSettings s t := by
  cases e with
  | hostWrite size a v => exact absurd rfl (hwrite size a v)
  | reset => exact absurd rfl hreset
  | hostRead size a =>
    obtain ⟨w, rfl⟩ := hostRead_outcome h
    exact ⟨rfl, id⟩
  | rxByte b => exact rxByte_keepsSettings h
  | txTake => exact txTake_keepsSettings h
  | tick => cases h; exact keepsSettings_tick s

/-- A host write leaves the parameters alone. -/
theorem HostWriteOutcome.params_eq {a : BitVec 12} {v : Word} {s t : State} (h : HostWriteOutcome a v s t) :
    t.params = s.params := by
  cases h with
  | started ha hidle i t hi ht => exact congrArg Settings.params (exec_keepsSettings ht).1
  | _ => rfl

theorem respond_params {e : Event} {s t : State} (h : respond e s = .next t) : t.params = s.params := by
  cases e with
  | hostWrite size a v => exact (hostWrite_outcome h).2.params_eq
  | reset => cases h; rfl
  | _ => exact congrArg Settings.params (respond_keepsSettings (by simp) (by simp) h).1

/-- No instruction touches LATENCY or the deadline timer. -/
theorem exec_clocks {i : Instr} {s t : State} (h : exec i s = .next t) : t.latency = s.latency ∧ t.tmr = s.tmr := by
  cases exec_outcome h with
  | received k src dst m =>
    obtain ⟨g, v, e, nok, r, hm⟩ | ⟨fifo, ovr, _, hm⟩ := receiveMessage_eq s (s.messageOf k src dst m) <;> rw [hm] <;>
      exact ⟨rfl, rfl⟩
  | _ => exact ⟨rfl, rfl⟩

/-- Settles O56: by `KeepsSettings`, and LATENCY and the timer by the instruction's outcomes. -/
theorem operandsAreTheHosts : Obligations.OperandsAreTheHosts := by
  refine ⟨fun s t e h => ?_, fun s t e hwrite hreset h => ?_, fun s t i h => ?_⟩
  · obtain ⟨u, hu, rfl⟩ := onNext_eq_next h
    exact respond_params (t := u) hu
  · obtain ⟨u, hu, rfl⟩ := onNext_eq_next h
    have hkeeps := (respond_keepsSettings hwrite hreset hu).1
    exact ⟨congrArg Settings.ctrlIE hkeeps, congrArg Settings.cfg hkeeps, congrArg Settings.timeout hkeeps,
      congrArg Settings.cmd hkeeps, congrArg Settings.arg0 hkeeps, congrArg Settings.arg1 hkeeps,
      congrArg Settings.draws hkeeps⟩
  · have hkeeps := (exec_keepsSettings h).1
    obtain ⟨hlatency, htmr⟩ := exec_clocks h
    exact ⟨congrArg Settings.ctrlIE hkeeps, congrArg Settings.cfg hkeeps, congrArg Settings.timeout hkeeps,
      congrArg Settings.cmd hkeeps, congrArg Settings.arg0 hkeeps, congrArg Settings.arg1 hkeeps,
      congrArg Settings.draws hkeeps, hlatency, htmr⟩

/-! ### The sticky flags (R39, R40) -/

/-- Settles O60: a host write by its outcomes; every other event keeps CMDERR and WERR, and OVR if set. -/
theorem stickyFlags : Obligations.StickyFlags := by
  intro s t e h hreset
  obtain ⟨u, hu, rfl⟩ := onNext_eq_next h
  simp only [State.recomputeIrq_status]
  by_cases hwrite : ∃ size a v, e = .hostWrite size a v
  · obtain ⟨size, a, v, rfl⟩ := hwrite
    obtain ⟨rfl, houtcome⟩ := hostWrite_outcome hu
    cases houtcome with
    | acknowledged ha =>
      subst ha
      simp +contextual [Status.writeOneToClear]
    | commandRefused ha hbusy =>
      subst ha
      simp +contextual [hbusy]
    | writeRefused hbusy => simp +contextual [hbusy]
    | started ha hidle i _ hi ht =>
      obtain ⟨hsettings, hovr⟩ := exec_keepsSettings ht
      have hcmderr : u.status.cmderr = s.status.cmderr := congrArg Settings.cmderr hsettings
      have hwerr : u.status.werr = s.status.werr := congrArg Settings.werr hsettings
      have hovr : s.status.ovr = true → u.status.ovr = true := hovr
      simp +contextual [hcmderr, hwerr, hovr]
    | control | illegal | written | ignored => simp +contextual [State.ended, State.accepted]
  · obtain ⟨hsettings, hovr⟩ := respond_keepsSettings (fun size a v he => hwrite ⟨size, a, v, he⟩) hreset hu
    have hcmderr : u.status.cmderr = s.status.cmderr := congrArg Settings.cmderr hsettings
    have hwerr : u.status.werr = s.status.werr := congrArg Settings.werr hsettings
    simp +contextual [hcmderr, hwerr, hovr]

/-! ### A running command under host accesses (R161) -/

/-- Settles O55: while BUSY a host write has four outcomes, a read one, and none of them moves the command. -/
theorem noCancellation : Obligations.NoCancellation := by
  intro s t e hbusy haccess h
  obtain ⟨u, hu, rfl⟩ := onNext_eq_next h
  obtain ⟨size, a, v, rfl⟩ | ⟨size, a, rfl⟩ := haccess
  · cases (hostWrite_outcome hu).2 with
    | acknowledged => exact ⟨rfl, fun hdone => by simp [Status.writeOneToClear, hdone]⟩
    | started _ hidle | illegal _ hidle | written hidle => simp [hbusy] at hidle
    | control | commandRefused | writeRefused | ignored => exact ⟨rfl, id⟩
  · obtain ⟨w, rfl⟩ := hostRead_outcome hu
    exact ⟨rfl, id⟩

/-! ### The buffers (R48 to R50) -/

/-- What an instruction writes: nothing, FRAMEBUF by ENCODE, or RXBUF by DECODE and received frames. -/
theorem exec_memory {i : Instr} {s t : State} (h : exec i s = .next t) :
    t.mem = s.mem ∨ (∃ dst kind f, i = .encode dst kind ∧ t.mem = (s.store .framebuf f).mem) ∨
      ∃ m, (i = .decode ∨ ∃ k src dst m, i = instrOfKind k src dst m) ∧ t.mem = (s.store .rxbuf m).mem := by
  cases exec_outcome h with
  | encoded dst kind f r hi => exact .inr (.inl ⟨dst, kind, f, hi, rfl⟩)
  | decoded msg r hi => exact .inr (.inr ⟨msg.m, .inl hi, rfl⟩)
  | received k src dst m hi =>
    obtain ⟨g, v, e, nok, r, hm⟩ | ⟨fifo, ovr, _, hm⟩ := receiveMessage_eq s (s.messageOf k src dst m) <;> rw [hm]
    · exact .inr (.inr ⟨m, .inr ⟨k, src, dst, m, hi⟩, rfl⟩)
    · exact .inl rfl
  | raised | computed | flushed | sent => exact .inl rfl

/-- Settles O57: each instruction writes at most one buffer (`exec_memory`), and a store stays inside its buffer. -/
theorem bufferOwnership : Obligations.BufferOwnership := by
  intro s t i h
  have hdraws : t.draws = s.draws := congrArg Settings.draws (exec_keepsSettings h).1
  have hstored : ∀ buf bs a, t.mem = (s.store buf bs).mem → a < buf.base ∨ buf.base + 256 ≤ a →
      t.readByte a = s.readByte a := fun buf bs a hmem ha =>
    (readByte_congr (s := s.store buf bs) (by rw [hmem]) hdraws).trans (readByte_store_outside s buf bs a (ha.imp_right .inr))
  obtain hmem | ⟨dst, kind, f, rfl, hmem⟩ | ⟨m, hi, hmem⟩ := exec_memory h
  · have hsame : ∀ a, t.readByte a = s.readByte a := fun a => readByte_congr (by rw [hmem]) hdraws
    exact ⟨fun a _ => hsame a, fun _ a _ _ => hsame a, fun _ _ a _ _ => hsame a⟩
  · refine ⟨fun a ha => hstored .framebuf f a hmem ?_, fun hne => absurd rfl (hne dst kind), fun _ _ a _ ha =>
      hstored .framebuf f a hmem (.inl ha)⟩
    simp only [Buffer.base]
    omega
  · refine ⟨fun a ha => hstored .rxbuf m a hmem ?_, fun _ a ha _ => hstored .rxbuf m a hmem (.inr ha), fun hne hkind => ?_⟩
    · simp only [Buffer.base]
      omega
    · obtain hdecode | ⟨k, src, dst, m, hk⟩ := hi
      · exact absurd hdecode hne
      · exact absurd hk (hkind k src dst m)

/-! ### The ping record (R42, R46, R183) -/

/-- PINGREC is the same, and PR_VALID has not risen. -/
def KeepsPing (s t : State) : Prop := t.pingrec = s.pingrec ∧ (t.status.prValid = true → s.status.prValid = true)

/-- The PING check that the command awaited has accepted a reply, which ended the command. -/
def AcceptsPing (s t : State) : Prop :=
  (∃ d, s.ctx = some (.ping d)) ∧ t.status.prValid = true ∧ t.status.err = s.status.err ∧ t.result = t.latency ∧
    t.status.busy = false

theorem refusedOrUnexpected_keepsPing (s : State) (msg : Message) : KeepsPing s (s.refusedOrUnexpected msg) := by
  unfold State.refusedOrUnexpected
  split <;> exact ⟨rfl, id⟩

/-- Of the reply checks only PING's, accepting, touches the ping record (R180, R182). -/
theorem run_ping_cases (c : ReplyCheck) (msg : Message) (s : State) :
    KeepsPing s (c.run msg s) ∨ ((∃ d, c = .ping d) ∧ (c.run msg s).status.prValid = true ∧
      (c.run msg s).status.err = s.status.err ∧ (c.run msg s).result = (c.run msg s).latency ∧
      (c.run msg s).status.busy = false) := by
  cases c with
  | any => exact .inl ⟨rfl, id⟩
  | ping d =>
    simp only [ReplyCheck.run, checkPing]
    split
    · exact .inr ⟨⟨d, rfl⟩, rfl, rfl, rfl, rfl⟩
    · exact .inl (refusedOrUnexpected_keepsPing s msg)
  | ack | info | read | typed =>
    simp only [ReplyCheck.run, checkAck, checkInfo, checkRead, checkTyped]
    split
    · exact .inl ⟨rfl, id⟩
    · exact .inl (refusedOrUnexpected_keepsPing s msg)

theorem receiveMessage_ping_cases (s : State) (msg : Message) :
    KeepsPing s (s.receiveMessage msg) ∨ AcceptsPing s (s.receiveMessage msg) := by
  obtain ⟨c, _, hctx, h⟩ | h := receiveMessage_cases s msg <;> rw [h]
  · obtain hkeeps | ⟨⟨d, rfl⟩, haccepts⟩ := run_ping_cases c msg (s.recorded msg)
    · exact .inl hkeeps
    · exact .inr ⟨⟨d, hctx⟩, haccepts⟩
  · rw [pushRxAll_eq]
    exact .inl ⟨rfl, id⟩

/-- No command accepts a reply within its own rule. -/
theorem exec_keepsPing {i : Instr} {s t : State} (hi : ∀ k src dst m, i ≠ instrOfKind k src dst m) (h : exec i s = .next t) :
    KeepsPing s t := by
  cases exec_outcome h with
  | received k src dst m hk => exact absurd hk (hi k src dst m)
  | _ => exact ⟨rfl, id⟩

theorem parseAndDeliver_ping_cases {s t : State} (hrecv : s.status.phase.receiving = true)
    (h : parseAndDeliver s = .next t) : KeepsPing s t ∨ AcceptsPing s t := by
  obtain hnone | ⟨u, msg, hsome, rfl⟩ := parseAndDeliver_cases h
  · obtain ⟨hto, -⟩ := runParser_parsedTo hrecv hnone
    exact .inl ⟨hto.pingrec, fun hv => hto.prValid ▸ hv⟩
  · obtain ⟨hto, -⟩ := runParser_parsedTo hrecv hsome
    obtain ⟨hpingrec, hvalid⟩ | ⟨⟨d, hctx⟩, hvalid, herr, hresult⟩ := receiveMessage_ping_cases u msg
    · exact .inl ⟨hpingrec.trans hto.pingrec, fun hv => hto.prValid ▸ hvalid hv⟩
    · exact .inr ⟨⟨d, hto.ctx ▸ hctx⟩, hvalid, herr.trans hto.err, hresult⟩

theorem expire_keepsPing (s : State) : KeepsPing s s.expire := by
  obtain ⟨_, h⟩ | ⟨_, h⟩ := expire_cases s <;> rw [h] <;> exact ⟨rfl, id⟩

theorem txTake_ping_cases {s t : State} (h : txTake s = .next t) : KeepsPing s t ∨ AcceptsPing s t := by
  obtain ⟨b, rest, _, ⟨_, rfl⟩ | ⟨_, _, rfl⟩ | ⟨c, u, _, _, hparse, rfl⟩⟩ := txTake_cases h
  · exact .inl ⟨rfl, id⟩
  · exact .inl ⟨rfl, id⟩
  · unfold State.expireIfZero
    obtain hkeeps | haccepts := parseAndDeliver_ping_cases rfl hparse
    · split
      · obtain ⟨hpingrec, hvalid⟩ := expire_keepsPing u
        exact .inl ⟨hpingrec.trans hkeeps.1, hkeeps.2 ∘ hvalid⟩
      · exact .inl hkeeps
    · have ⟨_, _, _, _, hended⟩ := haccepts
      rw [if_neg (by simp [hended])]
      exact .inr haccepts

theorem tick_keepsPing (s : State) : KeepsPing s s.countLatency.countDown := by
  have hlatency := countLatency_eq s
  obtain ⟨_, h⟩ | ⟨_, _, h⟩ | ⟨_, _, h⟩ := countDown_cases s.countLatency <;> rw [h]
  · rw [hlatency]
    exact ⟨rfl, id⟩
  · rw [hlatency]
    exact ⟨rfl, id⟩
  · rw [hlatency]
    exact expire_keepsPing _

theorem hostWrite_keepsPing {a : BitVec 12} {v : Word} {s t : State} (h : HostWriteOutcome a v s t) : KeepsPing s t := by
  have haccepted : KeepsPing s (s.accepted v) := ⟨rfl, fun hv => by simp [State.accepted] at hv; exact hv.2⟩
  cases h with
  | started ha hidle i t hi ht =>
    obtain ⟨hpingrec, hvalid⟩ := exec_keepsPing (decodeCmd_ne_instrOfKind hi) ht
    exact ⟨hpingrec, haccepted.2 ∘ hvalid⟩
  | illegal => exact haccepted
  | _ => exact ⟨rfl, id⟩

/-- An event other than Reset leaves the ping record alone, or the awaited PING check accepts a reply in it. -/
theorem respond_ping_cases {e : Event} {s t : State} (hreset : e ≠ .reset) (h : respond e s = .next t) :
    KeepsPing s t ∨ AcceptsPing s t := by
  cases e with
  | reset => exact absurd rfl hreset
  | hostWrite size a v => exact .inl (hostWrite_keepsPing (hostWrite_outcome h).2)
  | hostRead size a =>
    obtain ⟨w, rfl⟩ := hostRead_outcome h
    exact .inl ⟨rfl, id⟩
  | rxByte b =>
    have hpush : KeepsPing s (s.pushRx b) ∧ (s.pushRx b).ctx = s.ctx ∧ (s.pushRx b).status.err = s.status.err := by
      obtain ⟨_, hp⟩ | ⟨_, hp⟩ := pushRx_cases s b <;> rw [hp] <;> exact ⟨⟨rfl, id⟩, rfl, rfl⟩
    obtain ⟨hkeeps, hctx, herr⟩ := hpush
    obtain ⟨_, rfl⟩ | ⟨hrecv, hparse⟩ := rxByte_cases h
    · exact .inl hkeeps
    · obtain ⟨hpingrec, hvalid⟩ | ⟨hping, hvalid, herr', hresult⟩ :=
        parseAndDeliver_ping_cases (by rwa [pushRx_phase]) hparse
      · exact .inl ⟨hpingrec.trans hkeeps.1, hkeeps.2 ∘ hvalid⟩
      · exact .inr ⟨hctx ▸ hping, hvalid, herr'.trans herr, hresult⟩
  | txTake => exact txTake_ping_cases h
  | tick => cases h; exact .inl (tick_keepsPing s)

/-- Only PING comes to await PING's check. -/
theorem exec_awaits_ping {i : Instr} {s t : State} {d : Byte} (h : exec i s = .next t) (hctx : t.ctx = some (.ping d)) :
    s.ctx = some (.ping d) ∨ i = .ping d := by
  cases exec_outcome h with
  | sent msg c hlen hping => exact .inr (hping d hctx)
  | received k src dst m =>
    obtain ⟨g, v, e, nok, r, hm⟩ | ⟨fifo, ovr, _, hm⟩ := receiveMessage_eq s (s.messageOf k src dst m) <;> rw [hm] at hctx
    · simp [State.ended] at hctx
    · exact .inl hctx
  | raised | computed | encoded | decoded | flushed => simp at hctx

/-- Settles O58: by the two things an event can do to the ping record (`respond_ping_cases`). -/
theorem onlyPingWritesTheRecord : Obligations.OnlyPingWritesTheRecord := by
  refine ⟨fun s t e h hreset hchange => ?_, fun s t i d => exec_awaits_ping⟩
  obtain ⟨u, hu, rfl⟩ := onNext_eq_next h
  obtain ⟨hpingrec, hvalid⟩ | ⟨hctx, hvalid, herr, hresult, -⟩ := respond_ping_cases hreset hu
  · obtain hother | ⟨hwas, his⟩ := hchange
    · exact absurd hpingrec hother
    · simp [hvalid his] at hwas
  · exact ⟨hctx, hvalid, herr, hresult⟩

end Sys2Proof.Machine
end

section
/-! PROOFS. The invariant of the engine between events (`State.Inv`): it holds after Reset, every event keeps it, and under it
the deadline ends every command that expects a reply (41_transport.md R154, 70_reset_and_hazards.md R296). -/

namespace Sys2Proof.Machine

/-! ### States that have it -/

/-- Settles O48: after Reset every list is empty and every flag clear. -/
theorem invariantAtReset : Obligations.InvariantAtReset := fun p =>
  { memory := wf_resetFor p
    busy_phase := ⟨nofun, fun h => absurd rfl h⟩
    txq_phase := ⟨fun h => absurd rfl h, nofun⟩
    txq_bound := Nat.zero_le _
    fifo_bound := Nat.zero_le _
    pb_bound := Nat.zero_le _
    candidate := rfl
    receive := nofun
    idle_ctx := fun _ => rfl
    running := nofun
    error := fun h => absurd rfl h
    interrupt := rfl }

/-- A completion restores the invariant wherever the buffers and the receive lists are in order. -/
theorem inv_ended {s : State} {e : ErrCode} {nok : Bool} {r : Word} (hmem : s.mem.wf = true)
    (hfifo : s.fifo.length ≤ s.set.rxFifoDepth) (hpb : s.pb.length ≤ 254) (herr : e ≠ .ok → r = 0 ∧ nok = false) :
    (s.ended e nok r).Inv where
  memory := hmem
  busy_phase := ⟨nofun, fun h => absurd rfl h⟩
  txq_phase := ⟨fun h => absurd rfl h, nofun⟩
  txq_bound := Nat.zero_le _
  fifo_bound := hfifo
  pb_bound := hpb
  candidate := rfl
  receive := nofun
  idle_ctx := fun _ => rfl
  running := nofun
  error := herr
  interrupt := rfl

section Invariant

variable {s t : State}

/-- Between commands the engine is at rest (R35, R54, R55, R57). -/
theorem State.Inv.at_rest (h : s.Inv) (hidle : s.status.busy = false) :
    s.status.phase = .idle ∧ s.txq = [] ∧ s.cbuf = [] := by
  have hphase : s.status.phase = .idle := by
    by_contra hne
    simp [h.busy_phase.mpr hne] at hidle
  have htxq : s.txq = [] := by
    by_contra hne
    simp [h.txq_phase.mp hne] at hphase
  have hcand := h.candidate
  unfold State.candidateOk at hcand
  rw [hphase] at hcand
  exact ⟨hphase, htxq, hcand⟩

/-- In TX no candidate is open. -/
theorem State.Inv.cbuf_of_tx (h : s.Inv) (hphase : s.status.phase = .tx) : s.cbuf = [] := by
  have hcand := h.candidate
  unfold State.candidateOk at hcand
  rwa [hphase] at hcand

/-! ### The receive phase -/

/-- What holds in the receive phase while bytes are being parsed: the invariant without its claim that everything has been
parsed, and with the bound on the bytes the parser holds that makes `PB`'s bound hold after a discard. -/
structure State.Scanning (s : State) : Prop where
  memory : s.mem.wf = true
  busy : s.status.busy = true
  receiving : s.status.phase.receiving = true
  txq : s.txq = []
  fifo_bound : s.fifo.length ≤ s.set.rxFifoDepth
  held : s.cbuf.length + s.pb.length ≤ 254
  candidate : s.candidateOk
  awaits : ∃ c, s.ctx = some c
  done : s.status.done = false
  err : s.status.err = .ok
  nok : s.status.nok = false
  result : s.result = 0
  rxhdr : s.rxhdr = 0

/-- A candidate leaves room for its last byte in `PB` (R53, R54): its LEN is a byte. -/
theorem cbuf_length_le (hrecv : s.status.phase.receiving = true) (hok : s.candidateOk) : s.cbuf.length ≤ 254 := by
  have hLEN : (s.cbuf.getD 1 0).toNat < 256 := (s.cbuf.getD 1 0).isLt
  cases hphase : s.status.phase with
  | idle | tx => simp [hphase, Phase.receiving] at hrecv
  | awaitSoh => simp [(candidateOk_of_awaitSoh hphase).mp hok]
  | awaitHeader => obtain ⟨-, hmax, -⟩ := (candidateOk_of_awaitHeader hphase).mp hok; omega
  | awaitPayload => obtain ⟨-, -, hmax⟩ := (candidateOk_of_awaitPayload hphase).mp hok; omega
  | awaitChecksum => obtain ⟨-, -, hmax⟩ := (candidateOk_of_awaitChecksum hphase).mp hok; omega

theorem State.Inv.scanning (h : s.Inv) (hrecv : s.status.phase.receiving = true) : s.Scanning := by
  have hbusy : s.status.busy = true := h.busy_phase.mpr fun hidle => by simp [hidle, Phase.receiving] at hrecv
  have htxq : s.txq = [] := by
    by_contra hne
    simp [h.txq_phase.mp hne, Phase.receiving] at hrecv
  obtain ⟨hpb, -, -, hctx⟩ := h.receive hrecv
  obtain ⟨hdone, herr, hnok, hresult, hrxhdr⟩ := h.running hbusy
  exact ⟨h.memory, hbusy, hrecv, htxq, h.fifo_bound, by simpa [hpb] using cbuf_length_le hrecv h.candidate, h.candidate,
    Option.isSome_iff_exists.mp hctx, hdone, herr, hnok, hresult, hrxhdr⟩

/-- The last byte of a request begins the receive phase with no candidate (R152). -/
theorem State.Inv.scanning_startReceive (h : s.Inv) {b : Byte} {c : ReplyCheck} (htxq : s.txq = [b])
    (hctx : s.ctx = some c) : (s.taken b []).startReceive.Scanning := by
  have hphase : s.status.phase = .tx := h.txq_phase.mp (by simp [htxq])
  have hbusy : s.status.busy = true := h.busy_phase.mpr (by simp [hphase])
  obtain ⟨hdone, herr, hnok, hresult, hrxhdr⟩ := h.running hbusy
  have hcbuf := h.cbuf_of_tx hphase
  exact ⟨h.memory, hbusy, rfl, rfl, h.fifo_bound, by simpa [State.taken, hcbuf] using h.pb_bound,
    (candidateOk_of_awaitSoh rfl).mpr hcbuf, ⟨c, hctx⟩, hdone, herr, hnok, hresult, hrxhdr⟩

theorem State.Scanning.pushRx (h : s.Scanning) (b : Byte) : (s.pushRx b).Scanning := by
  obtain ⟨hroom, hp⟩ | ⟨_, hp⟩ := pushRx_cases s b <;> rw [hp]
  · exact { h with fifo_bound := by rw [List.length_append]; exact hroom }
  · exact { h with }

/-- With everything parsed and time left, it is the invariant. -/
theorem State.Scanning.inv (h : s.Scanning) (hpb : s.pb = []) (hfifo : s.fifo = []) (htmr : s.tmr ≠ 0) :
    s.recomputeIrq.Inv where
  memory := h.memory
  busy_phase := by
    have := h.receiving
    exact ⟨fun _ hidle => by simp_all [Phase.receiving], fun _ => h.busy⟩
  txq_phase := by
    have := h.receiving
    have := h.txq
    constructor <;> intro <;> simp_all [Phase.receiving]
  txq_bound := by simp [h.txq]
  fifo_bound := h.fifo_bound
  pb_bound := by simp [hpb]
  candidate := h.candidate
  receive := fun _ => ⟨hpb, hfifo, htmr, Option.isSome_iff_exists.mpr h.awaits⟩
  idle_ctx := fun hidle => by
    have := h.receiving
    simp_all [Phase.receiving]
  running := fun _ => ⟨h.done, h.err, h.nok, h.result, h.rxhdr⟩
  error := fun he => absurd h.err he
  interrupt := rfl

/-- The deadline leaves the invariant: the candidate's bytes fit `PB` (R154). -/
theorem State.Scanning.expire (h : s.Scanning) : s.expire.Inv ∧ s.expire.status.busy = false := by
  have hheld := h.held
  obtain ⟨_, hx⟩ | ⟨_, hx⟩ := expire_cases s <;> rw [hx]
  · exact ⟨inv_ended h.memory h.fifo_bound (by omega) fun _ => ⟨h.result, h.nok⟩, rfl⟩
  · refine ⟨inv_ended h.memory h.fifo_bound ?_ fun _ => ⟨h.result, h.nok⟩, rfl⟩
    rw [List.length_append, List.length_drop]
    omega

/-! ### The parser's run -/

/-- What the parser may change is what it has to answer for. -/
theorem State.Scanning.of_parsedTo (h : s.Scanning) (hto : s.ParsedTo t) (hrecv : t.status.phase.receiving = true)
    (hfifo : t.fifo.length ≤ s.set.rxFifoDepth) (hheld : t.cbuf.length + t.pb.length ≤ 254) (hok : t.candidateOk) :
    t.Scanning where
  memory := by rw [hto.mem, h.memory]
  busy := by rw [hto.busy, h.busy]
  receiving := hrecv
  txq := by rw [hto.txq, h.txq]
  fifo_bound := by rwa [State.set, hto.params]
  held := hheld
  candidate := hok
  awaits := by rw [hto.ctx]; exact h.awaits
  done := by rw [hto.done, h.done]
  err := by rw [hto.err, h.err]
  nok := by rw [hto.nok, h.nok]
  result := by rw [hto.result, h.result]
  rxhdr := by rw [hto.rxhdr, h.rxhdr]

/-- A byte from `PB` adds nothing to what the parser holds; after one from `FIFO` it holds the candidate alone. -/
theorem nextByte_held {b : Byte} (h : s.nextByte = some (b, t)) :
    t.fifo.length ≤ s.fifo.length ∧ t.cbuf = s.cbuf ∧ (t.pb.length + 1 = s.pb.length ∨ s.pb = [] ∧ t.pb = []) := by
  obtain ⟨hpb, ht⟩ | ⟨hpb, hfifo, ht⟩ := nextByte_eq_some_iff.mp h
  · have hsame : t.fifo = s.fifo := by rw [ht]
    exact ⟨by rw [hsame], by rw [ht], .inl (by rw [hpb, List.length_cons])⟩
  · have hsame : t.pb = [] := by rw [ht, hpb]
    exact ⟨by rw [hfifo, List.length_cons]; omega, by rw [ht], .inr ⟨hpb, hsame⟩⟩

/-- One byte keeps the bounds on `FIFO` and `PB`, and, delivering nothing, the scan. -/
theorem State.Scanning.byte {u v : State} {b : Byte} {r : Option Message} (h : s.Scanning) (hnext : s.nextByte = some (b, u))
    (hbyte : u.parseByte b = (v, r)) :
    v.fifo.length ≤ s.set.rxFifoDepth ∧ v.pb.length ≤ 254 ∧ (r = none → v.Scanning) := by
  obtain ⟨hfifoU, hcbufU, hpbU⟩ := nextByte_held hnext
  have hrecvU : u.status.phase.receiving = true := by rw [nextByte_phase hnext, h.receiving]
  obtain ⟨hfifoV, -⟩ := parseByte_lengths u b
  have hrecvV := parseByte_receiving u b hrecvU
  have hto := parsedTo_byte hnext
  have houtcome := parse_outcome u b hrecvU (candidateOk_congr (nextByte_phase hnext) hcbufU h.candidate)
  have hheld := h.held
  have hdepth := h.fifo_bound
  rw [hbyte] at hfifoV hrecvV hto houtcome
  have hfifo : v.fifo.length ≤ s.set.rxFifoDepth := (congrArg List.length hfifoV).trans_le (hfifoU.trans hdepth)
  have hpb : u.pb.length ≤ 254 := by
    obtain hless | ⟨-, hempty⟩ := hpbU
    · omega
    · simp [hempty]
  cases houtcome with
  | kept _ _ hcbuf hpbV hok =>
    refine ⟨hfifo, by rwa [hpbV], fun _ => h.of_parsedTo hto hrecvV hfifo ?_ hok⟩
    have hcand := cbuf_length_le hrecvV hok
    rw [hpbV]
    obtain hless | ⟨-, hempty⟩ := hpbU
    · rw [hcbuf, hcbufU, List.length_append, List.length_singleton]
      omega
    · simpa [hempty] using hcand
  | dropped _ e _ _ hcbuf hpbV hok =>
    have hback : v.pb.length ≤ 254 := by
      rw [hpbV, hcbufU]
      obtain hless | ⟨hnone, hempty⟩ := hpbU
      · simp
        omega
      · simp [hempty]
        omega
    exact ⟨hfifo, hback, fun _ => h.of_parsedTo hto hrecvV hfifo (by simpa [hcbuf] using hback) hok⟩
  | delivered msg _ => exact ⟨hfifo, hpb, nofun⟩

/-- A run that delivers nothing goes on scanning, nothing left to take; one that delivers leaves the bounds. -/
theorem State.Scanning.run {r : Option Message} (h : s.Scanning) (hrun : s.runParser = (t, r)) :
    s.ParsedTo t ∧ t.status.phase.receiving = true ∧ t.fifo.length ≤ s.set.rxFifoDepth ∧ t.pb.length ≤ 254 ∧
      (r = none → t.Scanning ∧ t.pb = [] ∧ t.fifo = []) := by
  obtain ⟨hto, hrecv⟩ := runParser_parsedTo h.receiving hrun
  obtain ⟨hnone, hsome⟩ := runParser_induction (P := fun u => u.Scanning ∧ u.params = s.params)
    (Q := fun u _ => u.fifo.length ≤ s.set.rxFifoDepth ∧ u.pb.length ≤ 254)
    (fun u b v w hu _ hnext hbyte => by
      obtain ⟨hscan, hparams⟩ := hu
      obtain ⟨-, -, hscanW⟩ := hscan.byte hnext hbyte
      have hstep := parsedTo_byte hnext
      rw [hbyte] at hstep
      exact ⟨hscanW rfl, hstep.params.trans hparams⟩)
    (fun u b v w msg hu _ hnext hbyte => by
      obtain ⟨hscan, hparams⟩ := hu
      obtain ⟨hfifo, hpb, -⟩ := hscan.byte hnext hbyte
      exact ⟨by rwa [State.set, hparams] at hfifo, hpb⟩)
    s h.receiving ⟨h, rfl⟩
  cases r with
  | none =>
    obtain ⟨⟨hscan, hparams⟩, -, hpb, hfifo⟩ := hnone t hrun
    exact ⟨hto, hrecv, by simp [hfifo], by simp [hpb], fun _ => ⟨hscan, hpb, hfifo⟩⟩
  | some msg =>
    obtain ⟨hfifo, hpb⟩ := hsome t msg hrun
    exact ⟨hto, hrecv, hfifo, hpb, nofun⟩

/-- A reply ends the command and leaves the invariant: an error comes with RESULT 0 and no NOK (R180). -/
theorem inv_run {c : ReplyCheck} {msg : Message} (hmem : s.mem.wf = true) (hfifo : s.fifo.length ≤ s.set.rxFifoDepth)
    (hpb : s.pb.length ≤ 254) (hfresh : s.Fresh) :
    (c.run msg s).Inv ∧ (c.run msg s).status.busy = false := by
  obtain ⟨herr, hnok, hresult⟩ := hfresh
  obtain ⟨r, g, v, hrun⟩ | hrun | hrun := run_cases c msg s <;> rw [hrun]
  · exact ⟨inv_ended hmem hfifo hpb fun he => absurd herr he, rfl⟩
  · exact ⟨inv_ended hmem hfifo hpb fun he => absurd herr he, rfl⟩
  · exact ⟨inv_ended hmem hfifo hpb fun _ => ⟨hresult, hnok⟩, rfl⟩

/-- Everything the parser can make of a scan: the reply has ended the command, or the scan goes on with the time it had. -/
theorem State.Scanning.parseAndDeliver (h : s.Scanning) (hparse : Machine.parseAndDeliver s = .next t) :
    (t.Inv ∧ t.status.busy = false) ∨ (t.Scanning ∧ t.pb = [] ∧ t.fifo = [] ∧ t.tmr = s.tmr) := by
  obtain hnone | ⟨u, msg, hsome, rfl⟩ := parseAndDeliver_cases hparse
  · obtain ⟨hto, -, -, -, hend⟩ := h.run hnone
    obtain ⟨hscan, hpb, hfifo⟩ := hend rfl
    exact .inr ⟨hscan, hpb, hfifo, hto.tmr⟩
  · obtain ⟨hto, hrecv, hfifo, hpb, -⟩ := h.run hsome
    obtain ⟨c, hctx⟩ := h.awaits
    left
    rw [receiveMessage_of_receiving msg hrecv (hto.ctx.trans hctx)]
    have hfresh : u.Fresh := ⟨hto.err.trans h.err, hto.nok.trans h.nok, hto.result.trans h.result⟩
    have hdepth : u.fifo.length ≤ (u.recordMessage msg).set.rxFifoDepth := by
      rw [State.set, State.recordMessage_params, hto.params]
      exact hfifo
    exact inv_run (s := u.recordMessage msg) (wf_writeBytes _ _ _ (by rw [hto.mem, h.memory])) hdepth hpb hfresh

/-! ### Commands (R156, R158) -/

/-- The state a command's rule starts in has a clear record (R158). -/
theorem fresh_accepted (s : State) (v : Word) : (s.accepted v).Fresh := ⟨rfl, rfl, rfl⟩

/-- A command queues its frame and starts to transmit (R156). -/
theorem State.Inv.sending (h : s.Inv) (hidle : s.status.busy = false) (v : Word) {msg : Message} {c : Option ReplyCheck}
    (hlen : msg.m.length ≤ MAX_M) :
    ((s.accepted v).sending (frameOf s.set.chkAlg msg) c).recomputeIrq.Inv := by
  obtain ⟨-, -, hcbuf⟩ := h.at_rest hidle
  exact
    { memory := h.memory
      busy_phase := ⟨fun _ => nofun, fun _ => rfl⟩
      txq_phase := ⟨fun _ => rfl, fun _ => frameOf_ne_nil _ _⟩
      txq_bound := by
        simp only [State.recomputeIrq_txq, State.sending, length_frameOf, MAX_M] at hlen ⊢
        omega
      fifo_bound := h.fifo_bound
      pb_bound := h.pb_bound
      candidate := hcbuf
      receive := nofun
      idle_ctx := nofun
      running := fun _ => ⟨rfl, rfl, rfl, rfl, rfl⟩
      error := fun he => absurd rfl he
      interrupt := rfl }

/-- A command's rule ends the command, or queues its frame. -/
theorem State.Inv.exec (h : s.Inv) (hidle : s.status.busy = false) {v : Word} {i : Instr} (hi : decodeCmd v = .ok i)
    (hrun : Machine.exec i (s.accepted v) = .next t) : t.recomputeIrq.Inv := by
  have hfresh := fresh_accepted s v
  cases exec_outcome hrun with
  | raised e =>
    rw [raise_of_fresh hfresh, recomputeIrq_ended]
    exact inv_ended h.memory h.fifo_bound h.pb_bound fun _ => ⟨rfl, rfl⟩
  | computed r =>
    rw [complete_with_result hfresh, recomputeIrq_ended]
    exact inv_ended h.memory h.fifo_bound h.pb_bound fun he => absurd rfl he
  | encoded dst kind f r =>
    rw [complete_with_result (s := (s.accepted v).store .framebuf f) hfresh, recomputeIrq_ended]
    exact inv_ended (wf_writeBytes _ _ _ h.memory) h.fifo_bound h.pb_bound fun he => absurd rfl he
  | decoded msg r =>
    rw [complete_with_result (s := (s.accepted v).recordMessage msg) hfresh, recomputeIrq_ended]
    exact inv_ended (wf_writeBytes _ _ _ h.memory) h.fifo_bound h.pb_bound fun he => absurd rfl he
  | flushed r =>
    rw [complete_with_result (s := { s.accepted v with pb := [], fifo := [] }) hfresh, recomputeIrq_ended]
    exact inv_ended h.memory (Nat.zero_le _) (Nat.zero_le _) fun he => absurd rfl he
  | sent msg c hlen => exact h.sending hidle v hlen
  | received k src dst m hk => exact absurd hk (decodeCmd_ne_instrOfKind hi k src dst m)

/-! ### Every event keeps it -/

theorem hostWrite_inv {a : BitVec 12} {v : Word} (h : s.Inv) (hwrite : HostWriteOutcome a v s t) : t.recomputeIrq.Inv := by
  cases hwrite with
  | control => exact { h with interrupt := rfl }
  | acknowledged =>
    refine { h with interrupt := rfl, running := fun hbusy => ?_ }
    obtain ⟨hdone, hrest⟩ := h.running hbusy
    exact ⟨by simp [Status.writeOneToClear, hdone], hrest⟩
  | commandRefused | writeRefused | ignored => exact { h with interrupt := rfl }
  | started ha hidle i _ hi ht => exact h.exec hidle hi ht
  | illegal =>
    rw [recomputeIrq_ended]
    exact inv_ended h.memory h.fifo_bound h.pb_bound fun _ => ⟨rfl, rfl⟩
  | written hidle cfg timeout arg0 arg1 mem hmem => exact { h with interrupt := rfl, memory := hmem h.memory }

theorem rxByte_inv {b : Byte} (h : s.Inv) (hrx : rxByte b s = .next t) : t.recomputeIrq.Inv := by
  obtain ⟨hphase, rfl⟩ | ⟨hrecv, hparse⟩ := rxByte_cases hrx
  · obtain ⟨hroom, hp⟩ | ⟨_, hp⟩ := pushRx_cases s b <;> rw [hp]
    · refine { h with interrupt := rfl, fifo_bound := ?_, receive := fun hrecv => ?_ }
      · rw [State.recomputeIrq_fifo, List.length_append]
        exact hroom
      · simp [hphase] at hrecv
    · exact { h with interrupt := rfl }
  · obtain ⟨hinv, -⟩ | ⟨hscan, hpb, hfifo, htmr⟩ := ((h.scanning hrecv).pushRx b).parseAndDeliver hparse
    · exact { hinv with interrupt := rfl }
    · refine hscan.inv hpb hfifo ?_
      obtain ⟨-, -, hleft, -⟩ := h.receive hrecv
      obtain ⟨_, hp⟩ | ⟨_, hp⟩ := pushRx_cases s b <;> rw [htmr, hp] <;> exact hleft

theorem txTake_inv (h : s.Inv) (htx : txTake s = .next t) : t.recomputeIrq.Inv := by
  obtain ⟨b, rest, htxq, ⟨hrest, rfl⟩ | ⟨rfl, hctx, rfl⟩ | ⟨c, u, rfl, hctx, hparse, rfl⟩⟩ := txTake_cases htx
  · have hphase : s.status.phase = .tx := h.txq_phase.mp (by simp [htxq])
    have hbound := h.txq_bound
    refine { h with interrupt := rfl, txq_phase := ⟨fun _ => hphase, fun _ => hrest⟩, txq_bound := ?_ }
    simp only [htxq, List.length_cons] at hbound
    exact (Nat.le_succ _).trans hbound
  · have hbusy : s.status.busy = true := h.busy_phase.mpr (by simp [h.txq_phase.mp (by simp [htxq])])
    obtain ⟨-, herr, -⟩ := h.running hbusy
    rw [complete_eq_ended, recomputeIrq_ended]
    exact inv_ended h.memory h.fifo_bound h.pb_bound fun he => absurd herr he
  · unfold State.expireIfZero
    obtain ⟨hinv, hended⟩ | ⟨hscan, hpb, hfifo, -⟩ := (h.scanning_startReceive htxq hctx).parseAndDeliver hparse
    · rw [if_neg (by simp [hended])]
      exact { hinv with interrupt := rfl }
    · split
      · obtain ⟨hinv, -⟩ := hscan.expire
        exact { hinv with interrupt := rfl }
      · next hleft => exact hscan.inv hpb hfifo fun hzero => hleft ⟨hscan.busy, hzero⟩

theorem tick_inv (h : s.Inv) : s.countLatency.countDown.recomputeIrq.Inv := by
  have hlatency : s.countLatency.Inv := by
    rw [countLatency_eq]
    exact { h with }
  obtain ⟨_, hc⟩ | ⟨hrecv, hleft, hc⟩ | ⟨hrecv, _, hc⟩ := countDown_cases s.countLatency <;> rw [hc]
  · exact { hlatency with interrupt := rfl }
  · refine { hlatency with interrupt := rfl, receive := fun _ => ?_ }
    obtain ⟨hpb, hfifo, -, hctx⟩ := hlatency.receive hrecv
    exact ⟨hpb, hfifo, hleft, hctx⟩
  · have hscan : State.Scanning { s.countLatency with tmr := s.countLatency.tmr - 1 } := { hlatency.scanning hrecv with }
    obtain ⟨hinv, -⟩ := hscan.expire
    exact { hinv with interrupt := rfl }

theorem handle_inv {e : Event} (h : s.Inv) (hevent : handle e s = .next t) : t.Inv := by
  obtain ⟨u, hu, rfl⟩ := onNext_eq_next hevent
  cases e with
  | hostWrite size a v => exact hostWrite_inv h (hostWrite_outcome hu).2
  | hostRead size a =>
    obtain ⟨w, rfl⟩ := hostRead_outcome hu
    exact { h with interrupt := rfl }
  | rxByte b => exact rxByte_inv h hu
  | txTake => exact txTake_inv h hu
  | tick => cases hu; exact tick_inv h
  | reset => cases hu; exact { invariantAtReset s.params with interrupt := rfl }

end Invariant

/-- Settles O49: a step with no event changes nothing; any other is an event (`handle_inv`). -/
theorem stepKeepsInvariant : Obligations.StepKeepsInvariant := by
  intro s t h hstep
  cases hin : s.inputs with
  | nil =>
    rw [step_nil hin] at hstep
    cases hstep
    exact h
  | cons e rest =>
    rw [step_cons hin] at hstep
    exact handle_inv (s := { s with inputs := rest }) { h with } hstep

/-! ### The deadline (R154, R296) -/

/-- How many ticks an event is. -/
def Event.ticks (e : Event) : Nat := if e = .tick then 1 else 0

/-- What an event does to a command that waits for its reply: it ends it, or leaves it waiting with a tick less to go if the
event is one. -/
theorem handle_waiting {e : Event} {s t : State} (h : s.Inv) (hrecv : s.status.phase.receiving = true) (hreset : e ≠ .reset)
    (htx : e ≠ .txTake) (hevent : handle e s = .next t) :
    t.status.busy = false ∨ (t.status.phase.receiving = true ∧ t.tmr.toNat + e.ticks = s.tmr.toNat) := by
  have hscan := h.scanning hrecv
  have hhost : ((∃ size a v, e = .hostWrite size a v) ∨ ∃ size a, e = .hostRead size a) →
      t.status.phase.receiving = true ∧ t.tmr.toNat = s.tmr.toNat := fun haccess => by
    obtain ⟨hsame, -⟩ := noCancellation s t e hscan.busy haccess hevent
    exact ⟨by rw [hsame]; exact hrecv, by rw [hsame]⟩
  cases e with
  | reset => exact absurd rfl hreset
  | txTake => exact absurd rfl htx
  | hostWrite size a v => exact .inr (hhost (.inl ⟨size, a, v, rfl⟩))
  | hostRead size a => exact .inr (hhost (.inr ⟨size, a, rfl⟩))
  | rxByte b =>
    obtain ⟨u, hu, rfl⟩ := onNext_eq_next hevent
    obtain ⟨hphase, -⟩ | ⟨-, hparse⟩ := rxByte_cases hu
    · simp [hrecv] at hphase
    · obtain ⟨-, hended⟩ | ⟨hscanU, -, -, htmr⟩ := (hscan.pushRx b).parseAndDeliver hparse
      · exact .inl hended
      · have hpush : (s.pushRx b).tmr = s.tmr := by obtain ⟨_, hp⟩ | ⟨_, hp⟩ := pushRx_cases s b <;> rw [hp]
        exact .inr ⟨hscanU.receiving, congrArg BitVec.toNat (htmr.trans hpush)⟩
  | tick =>
    obtain ⟨-, -, hleft, -⟩ := h.receive hrecv
    have hphase : s.countLatency.status.phase.receiving = true := by rw [countLatency_eq]; exact hrecv
    have htmr : s.countLatency.tmr = s.tmr := by rw [countLatency_eq]
    cases hevent
    obtain ⟨hnot, -⟩ | ⟨_, _, hc⟩ | ⟨_, _, hc⟩ := countDown_cases s.countLatency
    · simp [hphase] at hnot
    · rw [hc]
      refine .inr ⟨hphase, ?_⟩
      show (s.countLatency.tmr - 1).toNat + 1 = s.tmr.toNat
      rw [htmr]
      bv_omega
    · rw [hc]
      left
      obtain ⟨_, hx⟩ | ⟨_, hx⟩ := expire_cases { s.countLatency with tmr := s.countLatency.tmr - 1 } <;> rw [hx] <;> rfl

/-- An access that is one the engine defines is one in every state. -/
theorem enabled_of_enabled {e : Event} {s t : State} (htx : e ≠ .txTake) (h : e.enabled s = true) : e.enabled t = true := by
  cases e with
  | txTake => exact absurd rfl htx
  | _ => exact h

theorem feed_cons {e : Event} {es : List Event} {s t : State} (h : handle e s = .next t) : feed (e :: es) s = feed es t := by
  rw [feed, h]

/-- A command that waits with no more time than the ticks to come ends within them. -/
theorem waiting_ends (es : List Event) {s : State} (h : s.Inv) (hrecv : s.status.phase.receiving = true)
    (hes : ∀ e ∈ es, e ≠ .reset ∧ e ≠ .txTake ∧ ∀ t, e.enabled t = true) (hticks : s.tmr.toNat ≤ es.count .tick) :
    ∃ done t, done <+: es ∧ feed done s = .next t ∧ t.status.busy = false ∧ t.status.done = true := by
  induction es generalizing s with
  | nil =>
    obtain ⟨-, -, hleft, -⟩ := h.receive hrecv
    exact absurd (BitVec.eq_of_toNat_eq (Nat.le_zero.mp hticks)) hleft
  | cons e es ih =>
    obtain ⟨hreset, htx, henabled⟩ := hes e (List.mem_cons_self ..)
    obtain ⟨t, ht⟩ := handle_next (henabled s)
    have hinv := handle_inv h ht
    obtain hended | ⟨hrecvT, htmr⟩ := handle_waiting h hrecv hreset htx ht
    · refine ⟨[e], t, ⟨es, rfl⟩, feed_cons ht, hended, ?_⟩
      exact done_of_busy_falls ht hreset (h.scanning hrecv).busy hended
    · have hcount : t.tmr.toNat ≤ es.count .tick := by
        rw [List.count_cons] at hticks
        simp only [Event.ticks, beq_iff_eq] at htmr hticks
        omega
      obtain ⟨done, u, ⟨rest, hrest⟩, hfeed, hends⟩ := ih hinv hrecvT (fun e he => hes e (List.mem_cons_of_mem _ he)) hcount
      exact ⟨e :: done, u, ⟨rest, by rw [← hrest]; rfl⟩, (feed_cons ht).trans hfeed, hends⟩

/-- The event that takes a request's last byte ends the command, or leaves it waiting TIMEOUT.TO ticks (R152). -/
theorem handle_txTake_last {s t : State} {b : Byte} {c : ReplyCheck} (h : s.Inv) (htxq : s.txq = [b]) (hctx : s.ctx = some c)
    (hevent : handle .txTake s = .next t) :
    t.status.busy = false ∨ (t.status.phase.receiving = true ∧ t.tmr = s.timeout) := by
  obtain ⟨u, hu, rfl⟩ := onNext_eq_next hevent
  rw [respond, txTake_last_of_some htxq hctx] at hu
  obtain ⟨v, hv, rfl⟩ := onNext_eq_next hu
  simp only [State.recomputeIrq_status, State.recomputeIrq_tmr]
  unfold State.expireIfZero
  obtain ⟨-, hended⟩ | ⟨hscan, -, -, htmr⟩ := (h.scanning_startReceive htxq hctx).parseAndDeliver hv
  · rw [if_neg (by simp [hended])]
    exact .inl hended
  · split
    · exact .inl hscan.expire.2
    · exact .inr ⟨hscan.receiving, htmr⟩

/-- Settles O54: the last byte starts the wait (`handle_txTake_last`), and each tick shortens it (`waiting_ends`). -/
theorem deadlineEndsCommand : Obligations.DeadlineEndsCommand := by
  intro s b c es h htxq hctx hes hticks
  have hbusy : s.status.busy = true := h.busy_phase.mpr (by simp [h.txq_phase.mp (by simp [htxq])])
  obtain ⟨t, ht⟩ := handle_next (e := .txTake) (s := s) (by simp [Event.enabled, htxq])
  have hinv := handle_inv h ht
  obtain hended | ⟨hrecv, htmr⟩ := handle_txTake_last h htxq hctx ht
  · exact ⟨[], t, List.nil_prefix, feed_cons ht, hended, done_of_busy_falls ht nofun hbusy hended⟩
  · obtain ⟨done, u, hpre, hfeed, hends⟩ := waiting_ends es hinv hrecv
      (fun e he => ⟨(hes e he).1, (hes e he).2.1, fun _ => enabled_of_enabled (hes e he).2.1 (hes e he).2.2⟩)
      (by rwa [htmr])
    exact ⟨done, u, hpre, (feed_cons ht).trans hfeed, hends⟩

end Sys2Proof.Machine
end

section
/-! PROOFS. Received frames: what a message's record holds (10_state.md R44, R49), the checks of EXCHANGE, PING, GET_INFO and
READ (42_device_ops.md R180 to R183, R188, 43_register_access.md R213), and the events that bring a frame in (41_transport.md
R141, R146, R157). -/

namespace Sys2Proof.Machine

/-! ### The record (R44, R49) -/

/-- Four packed bytes as a number, the first the lowest (R63). -/
theorem toNat_packWord (b0 b1 b2 b3 : Byte) :
    (packWord b0 b1 b2 b3).toNat = b0.toNat + 256 * b1.toNat + 65536 * b2.toNat + 16777216 * b3.toNat := by
  rw [packWord_eq_append]
  simp only [toNat_append_byte]
  omega

/-- Settles O29: RXHDR's fields as a number, and a store to RXBUF read back and framed. -/
theorem messageRecord : Obligations.MessageRecord := by
  intro s msg hlen
  refine ⟨toNat_rxHeader (by omega), ?_, fun a ha => ?_, rfl⟩
  · exact readBytes_store { s with rxhdr := rxHeader msg } .rxbuf (by omega)
  · exact readByte_store_outside { s with rxhdr := rxHeader msg } .rxbuf msg.m a (ha.imp_right .inl)

/-! ### The checks on a clear record (R180) -/

/-- A message's byte count fits RESULT (R93). -/
theorem countWord_length {m : List Byte} (h : m.length ≤ 249) : countWord m.length = BitVec.ofNat 32 m.length :=
  if_pos (by omega)

section Checks

variable {s : State} {msg : Message}

theorem checkAny_of_fresh (h : s.Fresh) (hlen : msg.m.length ≤ 249) :
    checkAny msg s = s.ended .ok false (BitVec.ofNat 32 msg.m.length) := by
  rw [checkAny, countWord_length hlen]
  exact complete_with_result h _

theorem checkInfo_of_fresh (h : s.Fresh) (hlen : msg.m.length ≤ 249) :
    checkInfo msg s =
      if msg.kind = s.code .infoReply then s.ended .ok false (BitVec.ofNat 32 msg.m.length)
      else if msg.kind = s.code .ackNok then s.ended .ok true 0
      else s.ended .unexpectedReply false 0 := by
  rw [checkInfo, countWord_length hlen, complete_with_result h, refusedOrUnexpected_of_fresh h]

theorem checkRead_of_fresh (h : s.Fresh) (n : Nat) :
    checkRead n msg s =
      if msg.kind = s.code .readReply ∧ msg.m.length = n then s.ended .ok false (BitVec.ofNat 32 n)
      else if msg.kind = s.code .ackNok then s.ended .ok true 0
      else s.ended .unexpectedReply false 0 := by
  rw [checkRead, complete_with_result h, refusedOrUnexpected_of_fresh h]

/-- A reply of PING's kind with two bytes is the version; with its sender and the pinged leaf it makes the ping record
(R46, R182). -/
theorem checkPing_of_reply {pinged major minor : Byte} (h : s.Fresh) (hkind : msg.kind = s.code .pingReply)
    (hm : msg.m = [major, minor]) :
    checkPing pinged msg s =
      State.ended
        { s with
          pingrec := packWord major minor msg.src pinged
          status := { s.status with prValid := true } } .ok false s.latency := by
  rw [checkPing, if_pos ⟨hkind, by simp [hm]⟩, hm]
  exact complete_with_result (s := { s with
    pingrec := packWord major minor msg.src pinged, status := { s.status with prValid := true } }) h _

end Checks

/-! ### The checks on a received message (R157) -/

section Received

variable {s : State} {msg : Message}

theorem receiveMessage_of_awaits_any (h : s.Awaits .any) (hlen : msg.m.length ≤ 249) :
    s.receiveMessage msg = (s.recorded msg).ended .ok false (BitVec.ofNat 32 msg.m.length) := by
  have ⟨_, _, hfresh⟩ := h
  rw [receiveMessage_of_awaits h, ReplyCheck.run, checkAny_of_fresh (fresh_recorded hfresh msg) hlen]

theorem receiveMessage_of_awaits_info (h : s.Awaits .info) (hlen : msg.m.length ≤ 249) :
    s.receiveMessage msg =
      if msg.kind = s.code .infoReply then (s.recorded msg).ended .ok false (BitVec.ofNat 32 msg.m.length)
      else if msg.kind = s.code .ackNok then (s.recorded msg).ended .ok true 0
      else (s.recorded msg).ended .unexpectedReply false 0 := by
  have ⟨_, _, hfresh⟩ := h
  rw [receiveMessage_of_awaits h, ReplyCheck.run, checkInfo_of_fresh (fresh_recorded hfresh msg) hlen, recorded_code,
    recorded_code]

theorem receiveMessage_of_awaits_read {n : Nat} (h : s.Awaits (.read n)) :
    s.receiveMessage msg =
      if msg.kind = s.code .readReply ∧ msg.m.length = n then (s.recorded msg).ended .ok false (BitVec.ofNat 32 n)
      else if msg.kind = s.code .ackNok then (s.recorded msg).ended .ok true 0
      else (s.recorded msg).ended .unexpectedReply false 0 := by
  have ⟨_, _, hfresh⟩ := h
  rw [receiveMessage_of_awaits h, ReplyCheck.run, checkRead_of_fresh (fresh_recorded hfresh msg), recorded_code,
    recorded_code]

/-- PING's check on any message but a PING_REPLY of two bytes. -/
theorem receiveMessage_of_awaits_ping {pinged : Byte} (h : s.Awaits (.ping pinged))
    (hother : ¬(msg.kind = s.code .pingReply ∧ msg.m.length = 2)) :
    s.receiveMessage msg =
      if msg.kind = s.code .ackNok then (s.recorded msg).ended .ok true 0
      else (s.recorded msg).ended .unexpectedReply false 0 := by
  have ⟨_, _, hfresh⟩ := h
  rw [receiveMessage_of_awaits h, ReplyCheck.run, checkPing, recorded_code, if_neg hother,
    refusedOrUnexpected_of_fresh (fresh_recorded hfresh msg), recorded_code]

end Received

/-- Settles O23: EXCHANGE's check accepts whatever comes. -/
theorem anyReplyCompletesExchange : Obligations.AnyReplyCompletesExchange := by
  refine fun s src dst m hawaits hlen => ⟨fun p hp => ?_, fun kind _ => ?_⟩
  · rw [exec_kindArm hp, receiveMessage_of_awaits_any hawaits hlen]
    rfl
  · rw [runMessage_eq, receiveMessage_of_awaits_any hawaits hlen]

/-- Settles O25: a version reply makes the ping record; any other message is refused or unexpected by its code. -/
theorem pingCheck : Obligations.PingCheck := by
  refine fun s pinged src dst m hawaits hlen => ⟨fun major minor hm => ?_, fun p hp hother => ?_, fun kind hunnamed => ?_⟩
  · have ⟨_, _, hfresh⟩ := hawaits
    have hreply := checkPing_of_reply (pinged := pinged) (msg := s.messageOf .pingReply src dst m)
      (fresh_recorded hfresh (s.messageOf .pingReply src dst m)) rfl hm
    have hexec : exec (.kindPingReply src dst m) s = .next (s.receiveMessage (s.messageOf .pingReply src dst m)) :=
      exec_instrOfKind .pingReply src dst m s
    rw [receiveMessage_of_awaits hawaits, ReplyCheck.run, hreply] at hexec
    exact ⟨_, hexec, rfl, toNat_packWord major minor src pinged⟩
  · rw [exec_kindArm hp, receiveMessage_of_awaits_ping hawaits (by simpa [State.messageOf, code_eq_code_iff] using hother)]
    simp only [State.messageOf, code_eq_code_iff]
  · rw [runMessage_eq, receiveMessage_of_awaits_ping hawaits fun ⟨hkind, _⟩ => hunnamed .pingReply hkind.symm,
      if_neg (hunnamed .ackNok).symm]

/-- Settles O26: the outcome turns on the message's code, a named kind's own or the code of none. -/
theorem infoCheck : Obligations.InfoCheck := by
  refine fun s src dst m hawaits hlen => ⟨fun p hp => ?_, fun kind hunnamed => ?_⟩
  · rw [exec_kindArm hp, receiveMessage_of_awaits_info hawaits hlen]
    simp only [State.messageOf, code_eq_code_iff]
  · rw [runMessage_eq, receiveMessage_of_awaits_info hawaits hlen, if_neg (hunnamed .infoReply).symm,
      if_neg (hunnamed .ackNok).symm]

/-- Settles O27: the outcome turns on the message's code and its length. -/
theorem readCheck : Obligations.ReadCheck := by
  refine fun s n src dst m hawaits _ => ⟨fun p hp => ?_, fun kind hunnamed => ?_⟩
  · rw [exec_kindArm hp, receiveMessage_of_awaits_read hawaits]
    simp only [State.messageOf, code_eq_code_iff]
  · rw [runMessage_eq, receiveMessage_of_awaits_read hawaits,
      if_neg fun ⟨hkind, _⟩ => hunnamed .readReply hkind.symm, if_neg (hunnamed .ackNok).symm]

/-! ### A frame outside the receive phase (R141) -/

/-- Settles O30: the frame's bytes are stored one after the other (`pushRxAll_eq`). -/
theorem frameOutsideReceivePhaseIsStored : Obligations.FrameOutsideReceivePhaseIsStored := by
  intro s src dst m hphase p hp
  rw [exec_kindArm hp, receiveMessage_of_not_receiving _ hphase, pushRxAll_eq, length_frameOf]
  simp only [List.isEmpty_eq_false_iff.mpr (frameOf_ne_nil _ _), Bool.not_false, Bool.true_and]
  rfl

/-! ### A received byte (R141, R148) -/

theorem handle_rxByte (b : Byte) (s : State) : handle (.rxByte b) s = onNext (rxByte b s) State.recomputeIrq := rfl

/-- In the receive phase a byte is stored and the parser runs. -/
theorem rxByte_of_receiving {s : State} (b : Byte) (h : s.status.phase.receiving = true) :
    rxByte b s = parseAndDeliver (s.pushRx b) :=
  if_pos (by rwa [pushRx_phase])

theorem parseAndDeliver_of_none {s t : State} (h : s.runParser = (t, none)) : parseAndDeliver s = .next t := by
  rw [parseAndDeliver, h]

theorem parseAndDeliver_of_some {s t : State} {msg : Message} (h : s.runParser = (t, some msg)) :
    parseAndDeliver s = runMessage msg t := by
  rw [parseAndDeliver, h]

theorem pushRx_of_lt {s : State} (b : Byte) (h : s.fifo.length < s.set.rxFifoDepth) :
    s.pushRx b = { s with fifo := s.fifo ++ [b] } :=
  if_pos h

theorem pushRx_of_ge {s : State} (b : Byte) (h : s.set.rxFifoDepth ≤ s.fifo.length) :
    s.pushRx b = { s with status := { s.status with ovr := true } } :=
  if_neg (Nat.not_lt.mpr h)

/-- Settles O34: the event is the parser's run, then the one rule for received messages (`runMessage_eq`). -/
theorem receivedByteRunsParser : Obligations.ReceivedByteRunsParser := by
  refine ⟨fun s b hrecv => ⟨fun t hrun => ?_, fun t msg hrun => ?_⟩, fun s b => ⟨pushRx_of_lt b, pushRx_of_ge b⟩,
    fun s src dst m p hp => ?_⟩
  · rw [handle_rxByte, rxByte_of_receiving b hrecv, parseAndDeliver_of_none hrun]
    rfl
  · refine ⟨_, runMessage_eq msg t, ?_⟩
    rw [handle_rxByte, rxByte_of_receiving b hrecv, parseAndDeliver_of_some hrun, runMessage_eq]
    rfl
  · rw [runMessage_eq, exec_kindArm hp]

/-- Settles O43: outside the receive phase a byte is stored or lost, and nothing else happens. -/
theorem byteOutsideReceivePhase : Obligations.ByteOutsideReceivePhase := by
  intro s b hphase
  have hnot : ¬(s.pushRx b).status.phase.receiving = true := by
    rw [pushRx_phase]
    obtain h | h := hphase <;> simp [h, Phase.receiving]
  have hrx : handle (.rxByte b) s = .next (s.pushRx b).recomputeIrq := congrArg (onNext · _) (if_neg hnot)
  refine ⟨fun hroom => ?_, fun hfull => ?_⟩
  · rw [hrx, pushRx_of_lt b hroom]
    rfl
  · rw [hrx, pushRx_of_ge b hfull]
    rfl

/-! ### The last byte of a frame (R146) -/

/-- Bytes that decode to an instruction are a frame whose message is one. -/
theorem message_of_decode_frame_ok {p : ParamSet} {bs : List Byte} {i : Instr} (h : decode p (.frame bs) = .ok i) :
    ∃ msg, decodeFrame p.chkAlg bs = .ok msg ∧ decodeMessage p.kindCodes msg = .ok i := by
  unfold decode at h
  split at h
  · next heq => cases heq
  · next heq =>
    cases heq
    split at h
    · cases h
    · next msg hmsg => exact ⟨msg, hmsg, h⟩

/-- A frame's last byte, the only one to parse, delivers its message. -/
theorem runParser_last {s : State} {b : Byte} {msg : Message} (hphase : s.status.phase = .awaitChecksum) (hpb : s.pb = [])
    (hfifo : s.fifo = [b]) (hdecode : decodeFrame s.set.chkAlg (s.cbuf ++ [b]) = .ok msg) :
    s.runParser = ({ s with fifo := [], cbuf := [] }, some msg) := by
  obtain ⟨-, hframe⟩ := frameOf_of_decodeFrame_ok hdecode
  obtain ⟨hhead, hlast⟩ := List.append_inj' hframe rfl
  have hsum : b = checksum s.set.chkAlg s.cbuf := by
    rw [hhead]
    exact List.singleton_inj.mp hlast
  have hcandidate : s.candidate = msg := by rw [State.candidate, hhead]; rfl
  have hnext : s.nextByte = some (b, { s with fifo := [] }) :=
    nextByte_eq_some_iff.mpr (.inr ⟨hpb, hfifo, rfl⟩)
  refine runParser_of_delivered (by rw [hphase]; rfl) hnext ?_
  rw [parseByte_of_awaitChecksum (s := { s with fifo := [] }) hphase, parseChecksum_right (s := { s with fifo := [] }) hsum,
    ← hcandidate]
  rfl

/-- The byte that completes a frame, nothing else unparsed: its message runs with the candidate taken. -/
theorem rxByte_last {s : State} {b : Byte} {msg : Message} (hphase : s.status.phase = .awaitChecksum) (hpb : s.pb = [])
    (hfifo : s.fifo = []) (hdecode : decodeFrame s.set.chkAlg (s.cbuf ++ [b]) = .ok msg) :
    rxByte b s = runMessage msg { s with cbuf := [] } := by
  have hroom : s.fifo.length < s.set.rxFifoDepth := by
    rw [hfifo]
    exact rxFifoDepth_pos s
  have hrun := runParser_last (s := { s with fifo := s.fifo ++ [b] }) hphase hpb (by rw [hfifo]; rfl) hdecode
  have hsame : { s with fifo := [], cbuf := [] } = { s with cbuf := [] } :=
    congrArg (fun fifo => { s with fifo := fifo, cbuf := [] }) hfifo.symm
  rw [rxByte_of_receiving b (by rw [hphase]; rfl), pushRx_of_lt b hroom, parseAndDeliver_of_some hrun]
  exact congrArg (runMessage msg) hsame

/-- Settles O33: the byte completes the candidate (`rxByte_last`), whose message runs as the instruction. -/
theorem stepRunsReceivedFrame : Obligations.StepRunsReceivedFrame := by
  intro s b rest i hin hphase hpb hfifo hdecode
  obtain ⟨msg, hframe, hmessage⟩ := message_of_decode_frame_ok hdecode
  obtain ⟨t, ht⟩ := exec_next i { s with inputs := rest, cbuf := [] }
  refine ⟨t, ht, ?_⟩
  rw [step_cons hin, respond, rxByte_last (s := { s with inputs := rest }) hphase hpb hfifo hframe, runMessage, hmessage]
  exact congrArg (onNext · State.recomputeIrq) ht

end Sys2Proof.Machine
end

section
/-! PROOFS. The wire commands that only check their operands and queue a request (41_transport.md R163, R164, 42_device_ops.md
R182 to R189, 43_register_access.md R213, R218), the fields those operands are (30_encoding.md R86), and `TxTake`, which sends
what they queue (R152, R167). -/

namespace Sys2Proof.Machine

/-! ### Operands (R86) -/

theorem toNat_extractLsb' (v : Word) (lo len : Nat) : (v.extractLsb' lo len).toNat = v.toNat / 2 ^ lo % 2 ^ len := by
  rw [BitVec.extractLsb'_toNat, Nat.shiftRight_eq_div_pow]

theorem operand_fields (s : State) :
    s.offset = s.arg0.toNat % 65536 ∧ s.n = s.arg0.toNat / 65536 % 256 ∧ s.regid = s.arg0.toNat / 16777216 := by
  have hword := s.arg0.isLt
  simp only [State.offset, State.n, State.regid, byteAt, toNat_extractLsb']
  omega

/-- Settles O4: the operands as numbers; the rest is what the definitions say. -/
theorem operandFields : Obligations.OperandFields := by
  refine ⟨fun v => ⟨rfl, rfl⟩, fun s => ?_, fun s => ⟨rfl, rfl, rfl, rfl⟩, fun s dst kind m => rfl, fun s => rfl, rfl, rfl⟩
  obtain ⟨hoffset, hn, hregid⟩ := operand_fields s
  exact ⟨hoffset, hn, hregid, rfl⟩

/-! ### Requests (R156) -/

/-- Settles O18: every request of R180's table is short enough to be sent. -/
theorem deviceCommands : Obligations.DeviceCommands := by
  intro s dst
  have hshort : ∀ (kind : Byte) (m : List Byte) (c : ReplyCheck), m.length ≤ 4 →
      Host.Outcome.next (s.exchange dst kind m c) = (.next (s.sending (s.requestFrame dst kind m) (some c)) :
        Host.Outcome State Fault Refusal) :=
    fun kind m c hm => congrArg Host.Outcome.next (exchange_of_le c (hm.trans (by decide)))
  exact ⟨hshort _ [] _ (by decide), hshort _ [] _ (by decide), hshort _ [] _ (by decide),
    hshort _ _ _ (length_le32 s.arg1).le, hshort _ [] _ (by decide), congrArg Host.Outcome.next (sendOnly_of_le (by decide))⟩

/-- Settles O17: by whether TXBUF's N bytes fit a frame. -/
theorem exchangeAndSendCommands : Obligations.ExchangeAndSendCommands := by
  intro s dst kind hfresh
  have hlen : (s.load .txbuf s.n).length = s.n := length_load s .txbuf s.n
  refine ⟨fun hfits => ?_, fun hlong => ?_⟩
  · have hfits : (s.load .txbuf s.n).length ≤ MAX_M := hlen.trans_le hfits
    exact ⟨congrArg Host.Outcome.next (exchange_of_le .any hfits), congrArg Host.Outcome.next (sendOnly_of_le hfits)⟩
  · have hlong : MAX_M < (s.load .txbuf s.n).length := hlong.trans_eq hlen.symm
    rw [← raise_of_fresh hfresh]
    exact ⟨congrArg Host.Outcome.next (exchange_of_lt .any hlong), congrArg Host.Outcome.next (sendOnly_of_lt hlong)⟩

/-- N's byte is the third of ARG0 (R86). -/
theorem lenByte_n (s : State) : lenByte s.n = s.arg0.extractLsb' 16 8 :=
  (BitVec.ofNat_toNat 8 _).trans (BitVec.setWidth_eq _)

/-- A READ that a pre-flight check refuses sends nothing. -/
theorem execRead_of_refused {s : State} {e : ErrCode} (dst : Byte) (hfresh : s.Fresh) (h : s.readPreflight = some e) :
    execRead dst s = .next (s.ended e false 0) := by
  rw [execRead, h]
  exact congrArg Host.Outcome.next (raise_of_fresh hfresh e)

/-- A READ that passes them queues its request of three bytes, OFFSET and N as they stand in ARG0. -/
theorem execRead_of_passed {s : State} (dst : Byte) (h : s.readPreflight = none) :
    execRead dst s =
      .next (s.sending (s.requestFrame dst (s.code .readReg)
        [s.arg0.extractLsb' 0 8, s.arg0.extractLsb' 8 8, s.arg0.extractLsb' 16 8]) (some (.read s.n))) := by
  rw [execRead, h, le16_offset, lenByte_n]
  exact congrArg Host.Outcome.next (exchange_of_le _ (show 3 ≤ MAX_M by decide))

/-- Settles O19: the pre-flight checks in R213's order. -/
theorem readCommand : Obligations.ReadCommand := by
  intro s dst hfresh
  split
  case isTrue hzero => exact execRead_of_refused dst hfresh (if_pos hzero)
  case isFalse hpos =>
    split
    case isTrue hlong => exact execRead_of_refused dst hfresh ((if_neg hpos).trans (if_pos hlong))
    case isFalse hfits =>
      split
      case isTrue hpast =>
        exact execRead_of_refused dst hfresh ((if_neg hpos).trans ((if_neg hfits).trans (if_pos hpast)))
      case isFalse hspace =>
        exact execRead_of_passed dst ((if_neg hpos).trans ((if_neg hfits).trans (if_neg hspace)))

/-- Settles O21: by whether REGMAP has a register of that REGID. -/
theorem readTypedCommand : Obligations.ReadTypedCommand := by
  refine fun s dst hfresh => ⟨fun hnone => ?_, fun d hd => ?_⟩
  · have hlookup : lookup s.set.regmap s.regid = none := List.getElem?_eq_none hnone
    rw [exec, execReadTyped, hlookup, ← raise_of_fresh hfresh]
  · have hlookup : lookup s.set.regmap s.regid = some d := hd
    rw [exec, execReadTyped, hlookup]
    exact congrArg Host.Outcome.next (exchange_of_le _ (show 3 ≤ MAX_M by decide))

/-! ### `TxTake` (R152, R167) -/

theorem expireIfZero_of_ne {s : State} (h : s.tmr ≠ 0) : s.expireIfZero = s := if_neg fun ⟨_, hzero⟩ => h hzero

theorem expireIfZero_of_ended {s : State} (h : s.status.busy = false) : s.expireIfZero = s := if_neg (by simp [h])

theorem expireIfZero_of_zero {s : State} (hbusy : s.status.busy = true) (h : s.tmr = 0) : s.expireIfZero = s.expire :=
  if_pos ⟨hbusy, h⟩

theorem expire_of_awaitSoh {s : State} (h : s.status.phase = .awaitSoh) :
    s.expire = s.ended .timeout s.status.nok s.result := by
  obtain ⟨_, hx⟩ | ⟨hne, _⟩ := expire_cases s
  · exact hx
  · exact absurd h hne

theorem expire_of_candidate {s : State} (h : s.status.phase ≠ .awaitSoh) :
    s.expire = State.ended { s with pb := s.cbuf.drop 1 ++ s.pb } .messageIncomplete s.status.nok s.result := by
  obtain ⟨hsoh, _⟩ | ⟨_, hx⟩ := expire_cases s
  · exact absurd hsoh h
  · exact hx

section LastByte

variable {s t : State} {b : Byte} {c : ReplyCheck}

/-- The receive phase of a request whose last byte has gone out. -/
theorem handle_txTake_of_none (htxq : s.txq = [b]) (hctx : s.ctx = some c)
    (hrun : (s.taken b []).startReceive.runParser = (t, none)) :
    handle .txTake s = .next t.expireIfZero.recomputeIrq := by
  rw [handle, respond, txTake_last_of_some htxq hctx, parseAndDeliver_of_none hrun]
  rfl

/-- A reply already received ends the command, whatever TIMEOUT.TO. -/
theorem handle_txTake_of_some {msg : Message} (htxq : s.txq = [b]) (hctx : s.ctx = some c)
    (hrun : (s.taken b []).startReceive.runParser = (t, some msg)) :
    handle .txTake s = .next (t.receiveMessage msg).recomputeIrq ∧ (t.receiveMessage msg).status.busy = false := by
  obtain ⟨hto, hrecv⟩ := runParser_parsedTo rfl hrun
  have hended : (t.receiveMessage msg).status.busy = false := by
    rw [receiveMessage_of_receiving msg hrecv (hto.ctx.trans hctx)]
    obtain ⟨g, v, e, nok, r, hx⟩ := run_eq_ended c msg (t.recordMessage msg)
    rw [State.deliver, hx]
    rfl
  refine ⟨?_, hended⟩
  rw [handle, respond, txTake_last_of_some htxq hctx, parseAndDeliver_of_some hrun, runMessage_eq, onNext_next, onNext_next,
    expireIfZero_of_ended hended]

end LastByte

/-- Settles O45: the byte goes out; after the last of a request the parser runs, and then the timer decides. -/
theorem transmitByte : Obligations.TransmitByte := by
  intro s b rest
  refine ⟨handle_txTake_nil, fun htxq hrest => ?_, fun htxq hctx => ?_, fun c htxq hctx hpb hfifo hto => ?_,
    fun c htxq hctx hpb hfifo hto hbusy => ?_, fun c t htxq hctx hbusy => ?_⟩
  · rw [handle, respond, txTake_more htxq hrest]
    rfl
  · rw [handle, respond, txTake_last_of_none htxq hctx]
    rfl
  · have hrun := runParser_of_empty (s := (s.taken b []).startReceive) rfl (nextByte_eq_none_iff.mpr ⟨hpb, hfifo⟩)
    rw [handle_txTake_of_none htxq hctx hrun, expireIfZero_of_ne hto]
    rfl
  · have hrun := runParser_of_empty (s := (s.taken b []).startReceive) rfl (nextByte_eq_none_iff.mpr ⟨hpb, hfifo⟩)
    rw [handle_txTake_of_none htxq hctx hrun, expireIfZero_of_zero (s := (s.taken b []).startReceive) hbusy hto,
      expire_of_awaitSoh rfl, recomputeIrq_ended, ← hto]
    rfl
  · intro r
    refine ⟨fun hrun hto => ?_, fun hrun hto hphase => ?_, fun hrun hto hphase => ?_, fun msg hrun => ?_⟩
    · obtain ⟨hparsed, -⟩ := runParser_parsedTo rfl hrun
      have htmr : t.tmr ≠ 0 := by rw [hparsed.tmr]; exact hto
      rw [handle_txTake_of_none htxq hctx hrun, expireIfZero_of_ne htmr]
      rfl
    · obtain ⟨hparsed, -⟩ := runParser_parsedTo rfl hrun
      rw [handle_txTake_of_none htxq hctx hrun, expireIfZero_of_zero (hparsed.busy.trans hbusy) (hparsed.tmr.trans hto),
        expire_of_awaitSoh hphase, recomputeIrq_ended]
    · obtain ⟨hparsed, -⟩ := runParser_parsedTo rfl hrun
      rw [handle_txTake_of_none htxq hctx hrun, expireIfZero_of_zero (hparsed.busy.trans hbusy) (hparsed.tmr.trans hto),
        expire_of_candidate hphase, recomputeIrq_ended]
    · obtain ⟨hhandle, hended⟩ := handle_txTake_of_some htxq hctx hrun
      exact ⟨_, runMessage_eq msg t, hended, hhandle⟩

end Sys2Proof.Machine
end

section
/-! PROOFS. The step and the host window (00_scope.md R12, 20_memory.md R62 to R66): one event at a time, the command a CMD
write runs, the STATUS word (10_state.md R34), what host writes store or ignore, and Reset (70_reset_and_hazards.md R281). -/

namespace Sys2Proof.Machine

/-! ### One step (R12, R158) -/

/-- Settles O31: a step is the first listed event, and every event ends by recomputing IRQ. -/
theorem stepTakesOneEvent : Obligations.StepTakesOneEvent := by
  refine ⟨fun s => step_nil, fun s e rest hin => ⟨step_cons hin, fun t ht => ?_⟩⟩
  rw [step_cons hin] at ht
  obtain ⟨u, -, rfl⟩ := onNext_eq_next ht
  rfl

/-- A command word written to CMD while idle runs as its command on the accepted state (R158). -/
theorem writeCmd_of_ok {s : State} {v : Word} {i : Instr} (hidle : s.status.busy = false) (hi : decodeCmd v = .ok i) :
    writeCmd v s = exec i (s.accepted v) := by
  obtain ⟨hbusy, -⟩ | ⟨-, j, hj, hw⟩ | ⟨-, e, he, -⟩ := writeCmd_cases v s
  · simp [hidle] at hbusy
  · rw [hi] at hj
    rw [hw, Except.ok.inj hj]
  · simp [hi] at he

/-- Settles O32: the write is the command's meaning (`writeCmd_of_ok`), which always answers. -/
theorem stepRunsCommand : Obligations.StepRunsCommand := by
  intro s v rest i hin hidle hi
  obtain ⟨t, ht⟩ := exec_next i (State.accepted { s with inputs := rest } v)
  refine ⟨fresh_accepted _ v, t, ht, ?_⟩
  have hstep : step s = handle (.hostWrite 4 0x00C v) { s with inputs := rest } := step_cons hin
  rw [hstep, handle_hostWrite_cmd, writeCmd_of_ok (s := { s with inputs := rest }) hidle hi, ht]
  rfl

/-! ### The STATUS word (R34) -/

theorem phaseCode_lt (p : Phase) : p.code < 2 ^ 3 := by cases p <;> decide

/-- A STATUS word is its eleven fields. -/
theorem statusWord_eq_fields (st : Status) :
    st.word =
      wordField 0 (BitVec.ofBool st.busy) ||| wordField 1 (BitVec.ofBool st.done) ||| wordField 2 (BitVec.ofBool st.nok) |||
        wordField 3 (BitVec.ofBool st.chkseen) ||| wordField 4 (BitVec.ofBool st.lenseen) |||
        wordField 5 (BitVec.ofBool st.ovr) ||| wordField 6 (BitVec.ofBool st.cmderr) |||
        wordField 7 (BitVec.ofBool st.werr) ||| wordField 8 st.err.code ||| wordField 16 (BitVec.ofNat 3 st.phase.code) |||
        wordField 19 (BitVec.ofBool st.prValid) := by
  simp only [Status.word, flagBit_eq_wordField, ofNat_shiftLeft_eq_wordField 16 (phaseCode_lt st.phase)]
  rfl

/-- Settles O38: each field is read where it stands, and the numbers are those of R242 and R26. -/
theorem statusLayout : Obligations.StatusLayout := by
  intro st
  have herr : st.word.extractLsb' 8 8 = st.err.code := by
    rw [statusWord_eq_fields]
    simp [BitVec.extractLsb'_or, extractLsb'_wordField_same, extractLsb'_wordField_other]
  have hphase : (st.word.extractLsb' 16 3).toNat = st.phase.code := by
    rw [statusWord_eq_fields]
    simpa [BitVec.extractLsb'_or, extractLsb'_wordField_same, extractLsb'_wordField_other] using phaseCode_lt st.phase
  have hflags : st.word.getLsbD 0 = st.busy ∧ st.word.getLsbD 1 = st.done ∧ st.word.getLsbD 2 = st.nok ∧
      st.word.getLsbD 3 = st.chkseen ∧ st.word.getLsbD 4 = st.lenseen ∧ st.word.getLsbD 5 = st.ovr ∧
      st.word.getLsbD 6 = st.cmderr ∧ st.word.getLsbD 7 = st.werr ∧ st.word.getLsbD 19 = st.prValid ∧
      st.word.extractLsb' 20 12 = 0 := by
    rw [statusWord_eq_fields]
    simp [BitVec.extractLsb'_or, extractLsb'_wordField_other, getElem_wordField]
  obtain ⟨hbusy, hdone, hnok, hchkseen, hlenseen, hovr, hcmderr, hwerr, hprValid, hreserved⟩ := hflags
  refine ⟨hbusy, hdone, hnok, hchkseen, hlenseen, hovr, hcmderr, hwerr, herr, hphase, hprValid, hreserved, herr.trans ?_,
    hphase.trans ?_⟩
  · cases st.err <;> rfl
  · cases st.phase <;> rfl

/-! ### Host writes (R27, R63, R64, R66) -/

/-- A protected write while idle is done (R160). -/
theorem protect_of_idle {s : State} (h : s.status.busy = false) (t : State) : s.protect t = t := if_neg (by simp [h])

/-- A W1C bit keeps its flag unless written as 1 (R34). -/
theorem writeOneToClear_eq (st : Status) (v : Word) :
    st.writeOneToClear v =
      { st with
        done := if v.getLsbD 1 then false else st.done
        ovr := if v.getLsbD 5 then false else st.ovr
        cmderr := if v.getLsbD 6 then false else st.cmderr
        werr := if v.getLsbD 7 then false else st.werr } := by
  have hclear : ∀ flag bit : Bool, (flag && !bit) = if bit then false else flag := by decide
  simp only [Status.writeOneToClear, hclear]

/-- Settles O39: each register's write is what its place says. -/
theorem hostWriteRegisters : Obligations.HostWriteRegisters := by
  intro s v
  have hidleWrite : ∀ (a : BitVec 12) (w : State), a.toNat % 4 = 0 → s.status.busy = false →
      writePlace (placeOf a) v s = .next (s.protect w) → handle (.hostWrite 4 a v) s = .next w.recomputeIrq :=
    fun a w ha hidle hplace => by rw [handle_hostWrite ha, hplace, protect_of_idle hidle]; rfl
  refine ⟨?_, ?_, fun hidle => ⟨?_, ?_, ?_, ?_⟩⟩
  · exact handle_hostWrite (a := 0x000) (by decide) v s
  · rw [handle_hostWrite (by decide), show placeOf 0x018 = .status from placeOf_status, writePlace, writeOneToClear_eq]
    rfl
  · exact hidleWrite 0x004 { s with cfg := v } (by decide) hidle rfl
  · exact hidleWrite 0x008 { s with timeout := v } (by decide) hidle rfl
  · exact hidleWrite 0x010 { s with arg0 := v } (by decide) hidle rfl
  · exact hidleWrite 0x014 { s with arg1 := v } (by decide) hidle rfl

/-- The word addresses from RESULT to RXLEVEL hold read-only registers (R27). -/
theorem placeOf_readOnly {a : BitVec 12} (h : 0x01C ≤ a.toNat) (h' : a.toNat < 0x030) :
    placeOf a ∈ [Place.result, .rxhdr, .latency, .pingrec, .rxlevel] := by
  unfold placeOf
  rw [if_pos (by omega), if_neg (by omega), if_neg (by omega), if_neg (by omega), if_neg (by omega), if_neg (by omega),
    if_neg (by omega), if_neg (by omega)]
  split_ifs <;> decide

/-- A read-only register, RXBUF, DESC and a reserved address ignore a write (R64, R66). -/
theorem writePlace_ignored {a : BitVec 12} (v : Word) (s : State)
    (h : (0x01C ≤ a.toNat ∧ a.toNat < 0x100) ∨ (0x200 ≤ a.toNat ∧ a.toNat < 0x300) ∨ 0x400 ≤ a.toNat) :
    writePlace (placeOf a) v s = .next s := by
  obtain ⟨hlo, hhi⟩ | ⟨hlo, hhi⟩ | hlo := h
  · rcases Nat.lt_or_ge a.toNat 0x030 with hreg | hres
    · have hplace := placeOf_readOnly hlo hreg
      simp only [List.mem_cons, List.not_mem_nil, or_false] at hplace
      obtain h | h | h | h | h := hplace <;> rw [h] <;> rfl
    · rw [placeOf_reserved hres (.inl hhi)]
      rfl
  · rw [placeOf_rxbuf hlo hhi]
    rfl
  · rcases Nat.lt_or_ge a.toNat 0x500 with hdesc | hres
    · rw [placeOf_desc hlo hdesc]
      rfl
    · rw [placeOf_reserved (by omega) (.inr hres)]
      rfl

/-- Settles O41: the place ignores the write, and IRQ is recomputed. -/
theorem hostWriteIgnored : Obligations.HostWriteIgnored := by
  intro s a v ha hplace
  rw [handle_hostWrite ha, writePlace_ignored v s hplace]
  rfl

/-! ### Host writes to the buffers (R63) -/

/-- Bytes written to memory read back where they were written. -/
theorem readBytes_of_writeBytes {s t : State} {a : Nat} {bs : List Byte} (h : t.mem = s.mem.writeBytes a bs) :
    t.readBytes a bs.length = bs := by
  refine List.ext_getElem (length_readBytes _ _ _) fun i _ hi => ?_
  simp only [State.readBytes, List.getElem_map, List.getElem_range]
  exact readByte_of_read (by rw [h, read_writeBytes_inside _ _ _ _ hi])

/-- Every other byte reads as before. -/
theorem readByte_of_writeBytes {s t : State} {a x : Nat} {bs : List Byte} (h : t.mem = s.mem.writeBytes a bs)
    (hdraws : t.draws = s.draws) (hx : x < a ∨ a + bs.length ≤ x) : t.readByte x = s.readByte x :=
  readByte_congr (by rw [h, read_writeBytes_outside _ _ hx]) hdraws

/-- A word is its four bytes, the lowest first (R10, R63). -/
theorem ofNat_fromLE_le32 (v : Word) : BitVec.ofNat 32 (fromLE (le32 v)) = v := by
  rw [le32, ← packWord_eq_fromLE, packWord_eq_append]
  unfold byteAt
  ext i hi
  grind

/-- A write to a word of TXBUF or FRAMEBUF while idle puts its bytes at the word's own address. -/
theorem writePlace_buffer {s : State} {a : BitVec 12} (v : Word) (hidle : s.status.busy = false)
    (h : (0x100 ≤ a.toNat ∧ a.toNat < 0x200) ∨ (0x300 ≤ a.toNat ∧ a.toNat < 0x400)) :
    writePlace (placeOf a) v s = .next { s with mem := s.mem.writeBytes a.toNat (le32 v) } := by
  obtain ⟨hlo, hhi⟩ | ⟨hlo, hhi⟩ := h
  · rw [placeOf_txbuf hlo hhi, writePlace, protect_of_idle hidle, State.storeWord,
      show Buffer.txbuf.base + (a.toNat - 0x100) = a.toNat from Nat.add_sub_cancel' hlo]
  · rw [placeOf_framebuf hlo hhi, writePlace, protect_of_idle hidle, State.storeWord,
      show Buffer.framebuf.base + (a.toNat - 0x300) = a.toNat from Nat.add_sub_cancel' hlo]

/-- Settles O40: the word's bytes are written at its address, and read back from there. -/
theorem hostWriteBuffersIdle : Obligations.HostWriteBuffersIdle := by
  intro s a v hidle ha hplace
  have hhandle : handle (.hostWrite 4 a v) s =
      .next (State.recomputeIrq { s with mem := s.mem.writeBytes a.toNat (le32 v) }) := by
    rw [handle_hostWrite ha, writePlace_buffer v hidle hplace]
    rfl
  have hread : (State.recomputeIrq { s with mem := s.mem.writeBytes a.toNat (le32 v) }).readBytes a.toNat 4 = le32 v :=
    readBytes_of_writeBytes (s := s) (bs := le32 v) rfl
  refine ⟨_, hhandle, rfl, hread, fun x hx => readByte_of_writeBytes (s := s) rfl rfl hx, ?_⟩
  rw [hostWord_buffers _ (by omega) (by omega), hread, ofNat_fromLE_le32]

/-! ### Reset (R280, R281) -/

/-- The word addresses of the registers that R281's table gives the value 0. -/
theorem hostWord_reset {a : BitVec 12} (ha : a.toNat % 4 = 0) (h : a.toNat < 0x030) (hcfg : a ≠ 0x004)
    (htimeout : a ≠ 0x008) : State.reset.hostWord a = 0 := by
  have hzero : ∀ k ∈ [0, 3, 4, 5, 6, 7, 8, 9, 10, 11], State.reset.hostWord (BitVec.ofNat 12 (4 * k)) = 0 := by
    simp only [List.forall_mem_cons]
    exact ⟨rfl, rfl, rfl, rfl, rfl, rfl, rfl, rfl, rfl, rfl, nofun⟩
  have haddr : a = BitVec.ofNat 12 (4 * (a.toNat / 4)) := BitVec.eq_of_toNat_eq (by simp; omega)
  have h1 : a.toNat / 4 ≠ 1 := fun h1 => hcfg (by rw [haddr, h1]; rfl)
  have h2 : a.toNat / 4 ≠ 2 := fun h2 => htimeout (by rw [haddr, h2]; rfl)
  rw [haddr]
  refine hzero _ ?_
  simp only [List.mem_cons]
  omega

end Sys2Proof.Machine

namespace Sys2Proof

open Machine

/-- Settles O47: Reset is the reset state but for the draw, the events and the ports; CFG is the four parameters packed. -/
theorem resetEvent : Obligations.ResetEvent := by
  refine ⟨fun s => ?_, fun a ha h hcfg htimeout => hostWord_reset ha h hcfg htimeout, ?_⟩
  · have hstatus : Status.reset.word = 0 := by decide
    exact ⟨_, rfl, rfl, toNat_packWord _ _ _ _, rfl, rfl, rfl, rfl, hstatus, rfl, rfl, rfl, rfl, rfl, rfl, rfl, rfl,
      rfl, rfl, rfl, rfl, rfl, rfl, rfl, rfl⟩
  · obtain ⟨hid, hbcast, hmajor, hminor⟩ := byteAt_packWord 0x00 0xFF Config.protoMajor Config.protoMinor
    exact ⟨hid, hbcast, hmajor, hminor, rfl⟩

end Sys2Proof
end
